-- ==== Sys2Proof/Word.lean ====
section
/-! DEFINITION. The word types of the core (00_scope.md R8) and the bank of seven values, one for each DTMF tone
(41_tone_energy_estimator.md R130). -/

namespace Sys2Proof

/-- `DATA_WIDTH` = 8 bits: register values, read data, raw samples (R6, R64, R86). -/
abbrev Byte := BitVec 8

/-- `CMD_WIDTH` = 16 bits: one command word (R80). -/
abbrev CmdWord := BitVec 16

/-- `ADDR_WIDTH` = 4 bits: one address of the register space (R60). -/
abbrev RegAddr := BitVec 4

/-- A provisional code, 4 bits: 0 is "none", 1 to 12 name the twelve DTMF symbols (R87). -/
abbrev Code := BitVec 4

/-- The seven candidate tones in index order: rows r1..r4 are t = 0..3, columns c1..c3 are t = 4..6 (R130). -/
inductive Tone where
  | r1 | r2 | r3 | r4 | c1 | c2 | c3
deriving DecidableEq, Repr

/-- The tone index t of R130. -/
def Tone.index : Tone → Nat
  | .r1 => 0 | .r2 => 1 | .r3 => 2 | .r4 => 3 | .c1 => 4 | .c2 => 5 | .c3 => 6

/-- One value for each tone: a register array `NAME[0..6]` of R20, or the table `COEF[0..6]` of R130. -/
structure Bank (α : Type) where
  r1 : α
  r2 : α
  r3 : α
  r4 : α
  c1 : α
  c2 : α
  c3 : α
deriving DecidableEq, Repr

/-- `NAME[t]`, element t of a register array (R10). -/
def Bank.get {α : Type} (b : Bank α) : Tone → α
  | .r1 => b.r1 | .r2 => b.r2 | .r3 => b.r3 | .r4 => b.r4 | .c1 => b.c1 | .c2 => b.c2 | .c3 => b.c3

/-- The bank whose element t is `f t`: "for t in 0..6" (R11). -/
def Bank.ofFn {α : Type} (f : Tone → α) : Bank α :=
  ⟨f .r1, f .r2, f .r3, f .r4, f .c1, f .c2, f .c3⟩

/-- The bank that holds `a` for every tone. -/
def Bank.const {α : Type} (a : α) : Bank α := ⟨a, a, a, a, a, a, a⟩

end Sys2Proof
end

