-- ==== Sys2Proof/Config.lean ====
section
/-! DEFINITION. The parameters of the core: the configuration record of 00_scope.md R6, whose default is R6's table, and the
one value that the spec leaves to the platform (20_memory.md R67). Configuration is no state (10_state.md R20). -/

namespace Sys2Proof

/-- Every named parameter of R6, with the spec's default. The number of tones and of codes are no parameters (R7). -/
structure Params where
  /-- `N_BLOCK`, samples per block. -/
  nBlock : Nat := 100
  /-- `FS_NOMINAL`, samples per second; only the derivation of `COEF` used it. No rule reads it (R117). -/
  fsNominal : Nat := 8000
  /-- `COEF_SCALE`, the fixed-point scale of a coefficient; only the derivation of `COEF` used it (R131). -/
  coefScale : Nat := 128
  /-- `COEF[0..6]`, the table of R130; "A model must use the table, not recompute it" (R131). -/
  coef : Bank Nat := ⟨109, 105, 100, 95, 75, 64, 51⟩
  /-- `STEP_SHIFT` (R132). -/
  stepShift : Nat := 6
  /-- `ENERGY_SHIFT` (R133). -/
  energyShift : Nat := 15
  /-- `ENERGY_MAX`, the saturation ceiling of a tone energy (R133). -/
  energyMax : Nat := 255
  /-- `SAMPLE_LIM`: centred samples lie in -SAMPLE_LIM..SAMPLE_LIM (R110). -/
  sampleLim : Nat := 127
  /-- `MIN_COL_VALUE` (R152). -/
  minColValue : Nat := 60
  /-- `MIN_ROW_VALUE` (R155). -/
  minRowValue : Nat := 60
  /-- `CROSS_DIV` (R153, R156). -/
  crossDiv : Nat := 3
  /-- `FWD_TWIST` (R159). -/
  fwdTwist : Nat := 50
  /-- `REV_TWIST` (R160). -/
  revTwist : Nat := 38
  /-- `TWIST_DEN` (R159, R160). -/
  twistDen : Nat := 256
  /-- `MIN_TONE` (R185). -/
  minTone : Nat := 3
  /-- `MAX_TONE_DROPOUT` (R181). -/
  maxToneDropout : Nat := 2
  /-- `MIN_SILENCE` (R185). -/
  minSilence : Nat := 4
  /-- `COUNT_MAX`, the saturation ceiling of both duration counters (R25). -/
  countMax : Nat := 255
  /-- `Q_WIDTH`, the width of each signed recursion register; `q1` and `q2` are exact integers that R135 shows to fit in it. -/
  qWidth : Nat := 16
  /-- `CMD_WIDTH`; the type `CmdWord` fixes it. -/
  cmdWidth : Nat := 16
  /-- `DATA_WIDTH`; the type `Byte` fixes it. -/
  dataWidth : Nat := 8
  /-- `ADDR_WIDTH`; the type `RegAddr` fixes it. -/
  addrWidth : Nat := 4
deriving DecidableEq, Repr

/-- The parameters of the core: "The source's values are normative defaults" (R6). The units take the record as an
argument, so that a rule can be read at other values too. -/
def Config.params : Params := {}

/-- `CORE_BASE`, where the register space lies in a platform's address space. The platform chooses it and "no rule of this
spec reads" it (R67); no definition of the model reads it either. -/
opaque Config.coreBase : Nat

end Sys2Proof
end

