-- ==== Sys2Proof/Syntax.lean ====
section
/-! DEFINITION. The operations a client can present at the core's two input ports, one constructor for each row of
spec/opcode_table.json: the 14 commands of 30_encoding.md R82 and the SAMPLE operation of 40_pipeline.md R111. -/

namespace Sys2Proof

/-- The role of "instructions" is taken by these operations (R2). A read holds no operand: it ignores `DATA` (R81). -/
inductive Instr where
  /-- RD CTRL (R216). -/
  | rdCtrl
  /-- WR CTRL, d (R217): INIT when `d[0] = 1`, DISABLE when `d[0] = 0`. -/
  | wrCtrl (d : Byte)
  /-- RD STATUS (R220). -/
  | rdStatus
  /-- RD DIGIT (R221): take. -/
  | rdDigit
  /-- RD ERRCAUSE (R222). -/
  | rdErrcause
  /-- RD DBGCNT (R223). -/
  | rdDbgcnt
  /-- WR DBGCNT, d (R224). -/
  | wrDbgcnt (d : Byte)
  /-- RD ENERGY0 (R225). -/
  | rdEnergy0
  /-- RD ENERGY1 (R225). -/
  | rdEnergy1
  /-- RD ENERGY2 (R225). -/
  | rdEnergy2
  /-- RD ENERGY3 (R225). -/
  | rdEnergy3
  /-- RD ENERGY4 (R225). -/
  | rdEnergy4
  /-- RD ENERGY5 (R225). -/
  | rdEnergy5
  /-- RD ENERGY6 (R225). -/
  | rdEnergy6
  /-- SAMPLE on the sample port, the raw sample u (R86, R111). -/
  | sample (u : Byte)
deriving DecidableEq, Repr

/-- The operation's mnemonic, as spec/opcode_table.json spells it. -/
def Instr.mnemonic : Instr → String
  | .rdCtrl => "RD_CTRL"
  | .wrCtrl _ => "WR_CTRL"
  | .rdStatus => "RD_STATUS"
  | .rdDigit => "RD_DIGIT"
  | .rdErrcause => "RD_ERRCAUSE"
  | .rdDbgcnt => "RD_DBGCNT"
  | .wrDbgcnt _ => "WR_DBGCNT"
  | .rdEnergy0 => "RD_ENERGY0"
  | .rdEnergy1 => "RD_ENERGY1"
  | .rdEnergy2 => "RD_ENERGY2"
  | .rdEnergy3 => "RD_ENERGY3"
  | .rdEnergy4 => "RD_ENERGY4"
  | .rdEnergy5 => "RD_ENERGY5"
  | .rdEnergy6 => "RD_ENERGY6"
  | .sample _ => "SAMPLE"

/-- RD ENERGYt, t = 0..6 (R225: `t = ADDR - 8`). -/
def Instr.rdEnergy : Tone → Instr
  | .r1 => .rdEnergy0
  | .r2 => .rdEnergy1
  | .r3 => .rdEnergy2
  | .r4 => .rdEnergy3
  | .c1 => .rdEnergy4
  | .c2 => .rdEnergy5
  | .c3 => .rdEnergy6

end Sys2Proof
end

