-- ==== Sys2Proof/Decode.lean ====
section
/-! DEFINITION. The command word, the register map's addresses, the decoder and the encoder (30_encoding.md R80-R86,
20_memory.md R61), and the decoder as the opcode table numbers its bits. -/

namespace Sys2Proof

/-- The causes of an illegal command (60_exceptions.md R261). -/
inductive Cause where
  /-- 1 RSV_BITS: `cmd[14:12] != 0`. -/
  | rsvBits
  /-- 2 BAD_ADDR: `RSV = 0` and an unassigned address. -/
  | badAddr
  /-- 3 BAD_DIR: `RSV = 0` and a write to a read-only register. -/
  | badDir
deriving DecidableEq, Repr

/-- The value stored in `ERRCAUSE` (R261). -/
def Cause.code : Cause → BitVec 2
  | .rsvBits => 1
  | .badAddr => 2
  | .badDir => 3

/-- The registers the command port reaches (R28-R33, R61). -/
inductive RegName where
  | ctrl | status | digit | errcause | dbgcnt
  | energy (t : Tone)
deriving DecidableEq, Repr

/-- The register at an address: R61's map. Addresses 0x5, 0x6, 0x7 and 0xF are unassigned. -/
def regAt (a : RegAddr) : Option RegName :=
  match a.toNat with
  | 0x0 => some .ctrl
  | 0x1 => some .status
  | 0x2 => some .digit
  | 0x3 => some .errcause
  | 0x4 => some .dbgcnt
  | 0x8 => some (.energy .r1)
  | 0x9 => some (.energy .r2)
  | 0xA => some (.energy .r3)
  | 0xB => some (.energy .r4)
  | 0xC => some (.energy .c1)
  | 0xD => some (.energy .c2)
  | 0xE => some (.energy .c3)
  | _ => none

/-- A register's address, from the "address" column of R61. -/
def RegName.addr : RegName → RegAddr
  | .ctrl => 0x0
  | .status => 0x1
  | .digit => 0x2
  | .errcause => 0x3
  | .dbgcnt => 0x4
  | .energy .r1 => 0x8
  | .energy .r2 => 0x9
  | .energy .r3 => 0xA
  | .energy .r4 => 0xB
  | .energy .c1 => 0xC
  | .energy .c2 => 0xD
  | .energy .c3 => 0xE

/-- Field `W`, bit 15: 1 = write, 0 = read (R80). -/
def cmdW (w : CmdWord) : Bool := w.getLsbD 15

/-- Field `RSV`, bits 14:12 (R80). -/
def cmdRsv (w : CmdWord) : BitVec 3 := w.extractLsb' 12 3

/-- Field `ADDR`, bits 11:8 (R80). -/
def cmdAddr (w : CmdWord) : RegAddr := w.extractLsb' 8 4

/-- Field `DATA`, bits 7:0 (R80). -/
def cmdData (w : CmdWord) : Byte := w.extractLsb' 0 8

/-- What a port word stands for: an operation, or an illegal command with its cause (R83). -/
inductive Decoded where
  | op (i : Instr)
  | illegal (c : Cause)
deriving DecidableEq, Repr

/-- The read command of a register; every assigned register is readable (R83). -/
def readOp : RegName → Instr
  | .ctrl => .rdCtrl
  | .status => .rdStatus
  | .digit => .rdDigit
  | .errcause => .rdErrcause
  | .dbgcnt => .rdDbgcnt
  | .energy t => .rdEnergy t

/-- The write command of a register, or BAD_DIR where the register is read-only (R83). -/
def writeOp (d : Byte) : RegName → Decoded
  | .ctrl => .op (.wrCtrl d)
  | .dbgcnt => .op (.wrDbgcnt d)
  | .status => .illegal .badDir
  | .digit => .illegal .badDir
  | .errcause => .illegal .badDir
  | .energy _ => .illegal .badDir

/-- R83's `Decode`: total on every 16-bit word, the causes tested in the order RSV_BITS, BAD_ADDR, BAD_DIR (R264). -/
def decodeCmd (w : CmdWord) : Decoded :=
  if cmdRsv w ≠ 0 then .illegal .rsvBits
  else
    match regAt (cmdAddr w) with
    | none => .illegal .badAddr
    | some r => if cmdW w then writeOp (cmdData w) r else .op (readOp r)

/-- What a client drives on one of the two input ports: a command word on `cmd`, or a raw sample on `sample_u8`
(R80, R86). -/
inductive PortWord where
  | cmd (w : CmdWord)
  | sample (u : Byte)
deriving DecidableEq, Repr

/-- The decoder of both ports. Every sample value is legal (R86, R260). -/
def decode : PortWord → Decoded
  | .cmd w => decodeCmd w
  | .sample u => .op (.sample u)

/-- A command word assembled from its fields, `{W, 0b000, ADDR, DATA}` (R91). -/
def assembleCmd (write : Bool) (r : RegName) (d : Byte) : CmdWord :=
  BitVec.ofBool write ++ (0 : BitVec 3) ++ r.addr ++ d

/-- The encoder: an operation's port word, with `DATA = 0` for a read (R82, R86, R91). -/
def encode : Instr → PortWord
  | .rdCtrl => .cmd (assembleCmd false .ctrl 0)
  | .wrCtrl d => .cmd (assembleCmd true .ctrl d)
  | .rdStatus => .cmd (assembleCmd false .status 0)
  | .rdDigit => .cmd (assembleCmd false .digit 0)
  | .rdErrcause => .cmd (assembleCmd false .errcause 0)
  | .rdDbgcnt => .cmd (assembleCmd false .dbgcnt 0)
  | .wrDbgcnt d => .cmd (assembleCmd true .dbgcnt d)
  | .rdEnergy0 => .cmd (assembleCmd false (.energy .r1) 0)
  | .rdEnergy1 => .cmd (assembleCmd false (.energy .r2) 0)
  | .rdEnergy2 => .cmd (assembleCmd false (.energy .r3) 0)
  | .rdEnergy3 => .cmd (assembleCmd false (.energy .r4) 0)
  | .rdEnergy4 => .cmd (assembleCmd false (.energy .c1) 0)
  | .rdEnergy5 => .cmd (assembleCmd false (.energy .c2) 0)
  | .rdEnergy6 => .cmd (assembleCmd false (.energy .c3) 0)
  | .sample u => .sample u

/-- One row of R82's operation map; every row has mask 0xFF00. -/
structure OpRow where
  mnemonic : String
  write : Bool
  addr : RegAddr
  pattern : CmdWord
deriving DecidableEq, Repr

/-- The mask of every row of R82. -/
def opMask : CmdWord := 0xFF00

/-- R82's operation map, row for row (the mnemonics as spec/opcode_table.json spells them). -/
def opMap : List OpRow :=
  [ ⟨"RD_CTRL", false, 0x0, 0x0000⟩,
    ⟨"WR_CTRL", true, 0x0, 0x8000⟩,
    ⟨"RD_STATUS", false, 0x1, 0x0100⟩,
    ⟨"RD_DIGIT", false, 0x2, 0x0200⟩,
    ⟨"RD_ERRCAUSE", false, 0x3, 0x0300⟩,
    ⟨"RD_DBGCNT", false, 0x4, 0x0400⟩,
    ⟨"WR_DBGCNT", true, 0x4, 0x8400⟩,
    ⟨"RD_ENERGY0", false, 0x8, 0x0800⟩,
    ⟨"RD_ENERGY1", false, 0x9, 0x0900⟩,
    ⟨"RD_ENERGY2", false, 0xA, 0x0A00⟩,
    ⟨"RD_ENERGY3", false, 0xB, 0x0B00⟩,
    ⟨"RD_ENERGY4", false, 0xC, 0x0C00⟩,
    ⟨"RD_ENERGY5", false, 0xD, 0x0D00⟩,
    ⟨"RD_ENERGY6", false, 0xE, 0x0E00⟩ ]

/-- A word matches a row when it agrees with the row's pattern under the mask (R82). -/
def OpRow.hits (r : OpRow) (w : CmdWord) : Bool := (w &&& opMask) == r.pattern

/-- The port word that a row of spec/opcode_table.json of `nbits` bits with the bits `w` stands for. A command is exactly
one 16-bit word (R80, R85) and a sample has 8 bits on a port of its own (R86), so the width tells the two ports apart:
16 bits are the command port's, 8 bits the sample port's. No other width is an operation.
DESIGN CHOICE (log 8), safe: the spec joins the two ports in no common word. -/
def portWordOfTable (nbits w : Nat) : Option PortWord :=
  if nbits = 16 then some (.cmd (BitVec.ofNat 16 w))
  else if nbits = 8 then some (.sample (BitVec.ofNat 8 w))
  else none

/-- The operation the decoder reads from a table word, or none where it refuses. -/
def decodeTableWord (nbits w : Nat) : Option Instr :=
  match portWordOfTable nbits w with
  | none => none
  | some pw =>
    match decode pw with
    | .op i => some i
    | .illegal _ => none

end Sys2Proof
end

