-- ==== Sys2Proof/Machine/State.lean ====
section
/-! DEFINITION. The core's state: the register record of 10_state.md R20, beside it the outputs of the latest step and the
port values of the steps to come, which are the model's own. All of it is plain data. -/

namespace Sys2Proof.Machine

/-- DecoderState, the debounce state (R24). -/
structure DecoderState where
  /-- `ACTIVE_DIGIT`, the current candidate, 0 = none. -/
  activeDigit : Code
  /-- `ACTIVE_COUNT`, the counted tone blocks of the candidate's run; saturates. -/
  activeCount : Byte
  /-- `SILENCE_COUNT`, the consecutive code-0 blocks; saturates. -/
  silenceCount : Byte
deriving DecidableEq, Repr

/-- "The complete architectural state of the core is the record below; nothing else persists from one step to the next"
(R20), in R20's order. -/
structure Regs where
  /-- `ENABLED`, 1 bit. -/
  enabled : Bool
  /-- `IDX`, 7 bits: the samples of the current block accepted so far (R23). -/
  idx : BitVec 7
  /-- `Q1[0..6]`, signed `Q_WIDTH` bits: exact integers, which R135 shows to fit (DEDUCED, log 3). -/
  q1 : Bank Int
  /-- `Q2[0..6]`, as `Q1`. -/
  q2 : Bank Int
  /-- `ACTIVE_DIGIT`, `ACTIVE_COUNT`, `SILENCE_COUNT` (R24). -/
  dec : DecoderState
  /-- `MAILBOX`, 4 bits, 0 = none (R27). -/
  mailbox : Code
  /-- `DBG_REMAIN`, 8 bits (R32). -/
  dbgRemain : Byte
  /-- `ENERGY[0..6]`, 8 bits each (R33). -/
  energy : Bank Byte
  /-- `ERRCAUSE`, 2 bits (R31). -/
  errcause : BitVec 2
deriving DecidableEq, Repr

/-- The outputs of one step (R37, R215). -/
structure Outputs where
  /-- `rdata[7:0]`. -/
  rdata : Byte
  /-- `digit_pending`. -/
  digitPending : Bool
  /-- `pub_valid`. -/
  pubValid : Bool
  /-- `pub_code[3:0]`. -/
  pubCode : Code
  /-- `energy_valid`. -/
  energyValid : Bool
deriving DecidableEq, Repr

/-- The values on the input ports in one step (R215). -/
structure StepInput where
  /-- `rst`. -/
  rst : Bool := false
  /-- `sample_valid`. -/
  sampleValid : Bool := false
  /-- `sample_u8[7:0]`. -/
  sampleU8 : Byte := 0
  /-- `cmd_valid`. -/
  cmdValid : Bool := false
  /-- `cmd[15:0]`. -/
  cmd : CmdWord := 0
deriving DecidableEq, Repr

/-- The machine: the registers, the outputs that the latest step drove, and the port values of the steps to come.
`out` and `inputs` are the MODEL's own fields (DESIGN CHOICE, logs 1 and 2): outputs are no state and the input streams are
no state (R20, R37), but the step of the model is a function of State alone. -/
structure State where
  regs : Regs
  out : Outputs
  /-- Head first; an empty list reads as idle ports for ever. -/
  inputs : List StepInput
deriving DecidableEq, Repr

/-- The reasons a step can stop with a fault: none. "no step can hang, stall or refuse" (R232), an illegal command is
recorded and the machine goes on (R262, R263), and the sample path raises nothing (R260). -/
inductive Fault where
deriving DecidableEq, Repr

/-- The reasons a step can be refused. -/
inductive Refusal where
  /-- Raised by an arm of `exec` whose operation has no meaning yet, by its mnemonic; safe. No arm of this model does. -/
  | notModelled (mnemonic : String)
deriving DecidableEq, Repr

/-- The answer of a meaning and of a step. -/
abbrev Result := Host.Outcome State Fault Refusal

/-- The three cleared registers of DecoderState (R280). -/
def DecoderState.cleared : DecoderState := ⟨0, 0, 0⟩

/-- `RESET_STATE` (70_reset_and_hazards.md R280): "Nothing is unspecified". -/
def Regs.reset : Regs :=
  { enabled := false
    idx := 0
    q1 := Bank.const 0
    q2 := Bank.const 0
    dec := DecoderState.cleared
    mailbox := 0
    dbgRemain := 0
    energy := Bank.const 0
    errcause := 0 }

/-- All outputs 0: what R230 gives every output but `digit_pending` at the start of a step. -/
def Outputs.quiet : Outputs :=
  { rdata := 0, digitPending := false, pubValid := false, pubCode := 0, energyValid := false }

/-- The machine right after reset. DESIGN CHOICE (logs 1 and 2): no input is waiting and no step has driven an output. -/
def State.reset : State := { regs := Regs.reset, out := Outputs.quiet, inputs := [] }

end Sys2Proof.Machine
end

