-- ==== Sys2Proof/Machine/Flags.lean ====
section
/-! DEFINITION. The core's only flags, the four STATUS bits, each a view of other state (10_state.md R29, R34). -/

namespace Sys2Proof.Machine

/-- STATUS.ENABLED. -/
def flagEnabled (r : Regs) : Bool := r.enabled

/-- STATUS.PENDING: `MAILBOX != 0`; also the level of the `digit_pending` output (R206). -/
def flagPending (r : Regs) : Bool := r.mailbox != 0

/-- STATUS.ERR: `ERRCAUSE != 0`. -/
def flagErr (r : Regs) : Bool := r.errcause != 0

/-- STATUS.DBG_ACTIVE: `DBG_REMAIN != 0`. -/
def flagDbgActive (r : Regs) : Bool := r.dbgRemain != 0

/-- The STATUS register: `{0b0000, DBG_ACTIVE, ERR, PENDING, ENABLED}` (R29, R220). -/
def statusByte (r : Regs) : Byte :=
  (0 : BitVec 4) ++ BitVec.ofBool (flagDbgActive r) ++ BitVec.ofBool (flagErr r) ++ BitVec.ofBool (flagPending r) ++
    BitVec.ofBool (flagEnabled r)

/-- The CTRL register: `{0b0000000, ENABLED}` (R28, R216). -/
def ctrlByte (r : Regs) : Byte := (0 : BitVec 7) ++ BitVec.ofBool (flagEnabled r)

end Sys2Proof.Machine
end

