-- ==== Sys2Proof/Machine/Operands.lean ====
section
/-! DEFINITION. The arithmetic primitives of 00_scope.md R9 and every operand form: `DATA` (30_encoding.md R81), the lifecycle
bit of WR CTRL (R217) and the centred sample (40_pipeline.md R110). -/

namespace Sys2Proof.Machine

/-- `asr(v, k) = v // 2^k`, rounding toward minus infinity (R9). Lean's division of integers by a positive divisor is
floor division. -/
def asr (v : Int) (k : Nat) : Int := v / 2 ^ k

/-- `clamp(v, lo, hi) = min(max(v, lo), hi)` (R9). -/
def clamp (v lo hi : Int) : Int := min (max v lo) hi

/-- `sat_inc(v) = min(v + 1, COUNT_MAX)` on an 8-bit counter (R9, R25). -/
def satInc (p : Params) (v : Byte) : Byte := BitVec.ofNat 8 (min (v.toNat + 1) p.countMax)

/-- `Center(u)`: `u - 128`, with -128 clamped to -127 (R110). `SAMPLE_LIM` is the bound of the symmetric range (R6);
at its default only u = 0 is clamped (DEDUCED for other values, log 5). -/
def center (p : Params) (u : Byte) : Int :=
  clamp ((u.toNat : Int) - 128) (-(p.sampleLim : Int)) p.sampleLim

/-- `d[0]`, the bit of WR CTRL's data that selects INIT (1) or DISABLE (0); `d[7:1]` are ignored (R217). -/
def lifecycleBit (d : Byte) : Bool := d.getLsbD 0

/-- `zext_8` of a 4-bit code: what the DIGIT register reads (R30). -/
def zextCode (c : Code) : Byte := c.setWidth 8

/-- `zext_8` of the 2-bit cause: what the ERRCAUSE register reads (R31). -/
def zextCause (c : BitVec 2) : Byte := c.setWidth 8

end Sys2Proof.Machine
end

