-- ==== Sys2Proof/Machine/Ops.lean ====
section
/-! DEFINITION. The shared operations on the registers and on the machine: the register read (10_state.md R28-R33), the
mailbox's three operations (44_mailbox.md R201-R203), the clearing that INIT and DISABLE share (45_host_interface.md R218,
R219), the start of a step, hardware reset (70_reset_and_hazards.md R281), and the core's one exception, an illegal command
(60_exceptions.md R261-R263). There is no return from it: "There is no trap entry and no trap return" (R266). -/

namespace Sys2Proof.Machine

/-- `RegRead(a)`: the 8-bit value a register reads as (R10, R28-R33). Reading DIGIT also takes; that is the meaning of RD
DIGIT, not of this view. -/
def regRead (n : RegName) (r : Regs) : Byte :=
  match n with
  | .ctrl => ctrlByte r
  | .status => statusByte r
  | .digit => zextCode r.mailbox
  | .errcause => zextCause r.errcause
  | .dbgcnt => r.dbgRemain
  | .energy t => r.energy.get t

/-- The state with other registers and the same outputs and inputs. -/
def State.setRegs (s : State) (r : Regs) : State := { s with regs := r }

/-- The state with another read datum on `rdata`. -/
def State.setRdata (s : State) (v : Byte) : State := { s with out := { s.out with rdata := v } }

/-- The state with another `ERRCAUSE`. -/
def Regs.setErrcause (r : Regs) (c : BitVec 2) : Regs := { r with errcause := c }

/-- The state with another `DBG_REMAIN`. -/
def Regs.setDbgRemain (r : Regs) (d : Byte) : Regs := { r with dbgRemain := d }

/-- publish (R201): the slot is overwritten whatever it holds. -/
def Regs.publish (r : Regs) (p : Code) : Regs := { r with mailbox := p }

/-- take (R202): the slot is cleared; the datum read is `regRead .digit` of the registers before. -/
def Regs.take (r : Regs) : Regs := { r with mailbox := 0 }

/-- reset of the mailbox (R203). -/
def Regs.mailboxReset (r : Regs) : Regs := { r with mailbox := 0 }

/-- What INIT and DISABLE do alike (R218, R219): the partial block, DecoderState and the mailbox are cleared, and `ENABLED`
takes its new value; `DBG_REMAIN`, `ENERGY` and `ERRCAUSE` are unchanged. -/
def Regs.restart (r : Regs) (en : Bool) : Regs :=
  { r.mailboxReset with
    enabled := en
    idx := 0
    q1 := Bank.const 0
    q2 := Bank.const 0
    dec := DecoderState.cleared }

/-- `Init()` (R218). -/
def Regs.init (r : Regs) : Regs := r.restart true

/-- `Disable()` (R219). -/
def Regs.disable (r : Regs) : Regs := r.restart false

/-- A read command without a side effect: `rdata` takes the register's value. -/
def readReg (n : RegName) (s : State) : State := s.setRdata (regRead n s.regs)

/-- The error latch (R262): the first cause since hardware reset stays. -/
def Regs.latchError (r : Regs) (c : Cause) : Regs := if r.errcause = 0 then r.setErrcause c.code else r

/-- `raise IllegalCommand(cause)`: the latch, `rdata` = 0x00, and nothing else (R261-R263). -/
def raiseIllegal (c : Cause) (s : State) : State := (s.setRegs (s.regs.latchError c)).setRdata 0

/-- The outputs at the start of a step: `digit_pending` is the level of the pre-step mailbox, the rest is 0 (R206, R230). -/
def startOutputs (r : Regs) : Outputs := { Outputs.quiet with digitPending := flagPending r }

/-- The start of a step (R230). -/
def beginStep (s : State) : State := { s with out := startOutputs s.regs }

/-- A reset step's effect on the registers (R281). -/
def hardwareReset (s : State) : State := s.setRegs Regs.reset

end Sys2Proof.Machine
end

