-- ==== Sys2Proof/Machine/HostCommands.lean ====
section
/-! DEFINITION. The meanings of the 14 commands of the command port (45_host_interface.md R216-R225). A meaning acts on a
state whose step has begun (`beginStep`): it writes `rdata` and the registers and leaves the other outputs alone. -/

namespace Sys2Proof.Machine

/-- RD CTRL (R216). -/
def execRdCtrl (s : State) : Result := .next (readReg .ctrl s)

/-- WR CTRL, d (R217): INIT (R218) or DISABLE (R219); a write reads 0x00. -/
def execWrCtrl (d : Byte) (s : State) : Result :=
  .next ((s.setRegs (if lifecycleBit d then s.regs.init else s.regs.disable)).setRdata 0)

/-- RD STATUS (R220). -/
def execRdStatus (s : State) : Result := .next (readReg .status s)

/-- RD DIGIT (R221): the pending code is read and the slot cleared in one step, `take()` (R202). -/
def execRdDigit (s : State) : Result := .next ((readReg .digit s).setRegs s.regs.take)

/-- RD ERRCAUSE (R222). -/
def execRdErrcause (s : State) : Result := .next (readReg .errcause s)

/-- RD DBGCNT (R223). -/
def execRdDbgcnt (s : State) : Result := .next (readReg .dbgcnt s)

/-- WR DBGCNT, d (R224); a write reads 0x00. -/
def execWrDbgcnt (d : Byte) (s : State) : Result := .next ((s.setRegs (s.regs.setDbgRemain d)).setRdata 0)

/-- RD ENERGY0 (R225). -/
def execRdEnergy0 (s : State) : Result := .next (readReg (.energy .r1) s)

/-- RD ENERGY1 (R225). -/
def execRdEnergy1 (s : State) : Result := .next (readReg (.energy .r2) s)

/-- RD ENERGY2 (R225). -/
def execRdEnergy2 (s : State) : Result := .next (readReg (.energy .r3) s)

/-- RD ENERGY3 (R225). -/
def execRdEnergy3 (s : State) : Result := .next (readReg (.energy .r4) s)

/-- RD ENERGY4 (R225). -/
def execRdEnergy4 (s : State) : Result := .next (readReg (.energy .c1) s)

/-- RD ENERGY5 (R225). -/
def execRdEnergy5 (s : State) : Result := .next (readReg (.energy .c2) s)

/-- RD ENERGY6 (R225). -/
def execRdEnergy6 (s : State) : Result := .next (readReg (.energy .c3) s)

end Sys2Proof.Machine
end

