-- ==== Sys2Proof/Machine/Classifier.lean ====
section
/-! DEFINITION. DigitClassifier: the energy comparator and digit decoder (42_digit_classifier.md). -/

namespace Sys2Proof.Machine

/-- Max2 (R150) on (value, index) pairs: on a tie the left operand wins (90_conflicts.md C2). -/
def max2 (a b : Nat × Nat) : Nat × Nat := if a.1 ≥ b.1 then a else b

/-- The columns as (value, index) pairs: c1, c2, c3 with indexes 0, 1, 2 (R151). -/
def columnLevels (e : Bank Byte) : List (Nat × Nat) := [(e.c1.toNat, 0), (e.c2.toNat, 1), (e.c3.toNat, 2)]

/-- The rows as (value, index) pairs: r1..r4 with indexes 0..3 (R154). -/
def rowLevels (e : Bank Byte) : List (Nat × Nat) :=
  [(e.r1.toNat, 0), (e.r2.toNat, 1), (e.r3.toNat, 2), (e.r4.toNat, 3)]

/-- The column winner: c1 against c2, then the winner against c3 (R151). -/
def columnWinner (e : Bank Byte) : Nat × Nat :=
  max2 (max2 (e.c1.toNat, 0) (e.c2.toNat, 1)) (e.c3.toNat, 2)

/-- The row winner: r1 against r2 and r3 against r4, then the two winners (R154). -/
def rowWinner (e : Bank Byte) : Nat × Nat :=
  max2 (max2 (e.r1.toNat, 0) (e.r2.toNat, 1)) (max2 (e.r3.toNat, 2) (e.r4.toNat, 3))

/-- Cross-rejection: some candidate other than the winner exceeds `winner // CROSS_DIV` (R153, R156). -/
def crossRejects (p : Params) (w : Nat × Nat) (levels : List (Nat × Nat)) : Bool :=
  levels.any fun l => l.2 != w.2 && decide (l.1 > w.1 / p.crossDiv)

/-- Forward twist (R159): strict, equality passes. -/
def forwardTwistRejects (p : Params) (cs rs : Nat) : Bool := decide (cs * p.fwdTwist > rs * p.twistDen)

/-- Reverse twist (R160): strict, equality passes. -/
def reverseTwistRejects (p : Params) (cs rs : Nat) : Bool := decide (rs * p.revTwist > cs * p.twistDen)

/-- The twist test of a block that reaches step 4: forward when the column is the stronger, else reverse (R158). -/
def twistRejects (p : Params) (cs rs : Nat) : Bool :=
  if cs > rs then forwardTwistRejects p cs rs else reverseTwistRejects p cs rs

/-- `ROW_OFFSET = [1, 4, 7, 10]` (R157). -/
def rowOffset (ri : Nat) : Nat :=
  match ri with
  | 0 => 1
  | 1 => 4
  | 2 => 7
  | _ => 10

/-- Classify (R161), its tests in the source's order; on any rejection the code is 0. -/
def classify (p : Params) (e : Bank Byte) : Code :=
  let c := columnWinner e
  let r := rowWinner e
  if c.1 < p.minColValue then 0
  else if crossRejects p c (columnLevels e) then 0
  else if r.1 < p.minRowValue then 0
  else if crossRejects p r (rowLevels e) then 0
  else if twistRejects p c.1 r.1 then 0
  else BitVec.ofNat 4 (c.2 + rowOffset r.2)

end Sys2Proof.Machine
end

