-- ==== Sys2Proof/Machine/Debouncer.lean ====
section
/-! DEFINITION. DurationDebouncer: the debounce state machine, stepped once per completed block (43_duration_debouncer.md). -/

namespace Sys2Proof.Machine

/-- The tone branch, n != 0 (R181-R183): a continuation counts up, anything else starts a new candidate, and the silence
count is cleared. The test reads the silence count from before. -/
def debounceTone (p : Params) (d : DecoderState) (n : Code) : DecoderState :=
  if n = d.activeDigit ∧ d.silenceCount.toNat ≤ p.maxToneDropout then
    { activeDigit := d.activeDigit, activeCount := satInc p d.activeCount, silenceCount := 0 }
  else
    { activeDigit := n, activeCount := 1, silenceCount := 0 }

/-- Whether a code-0 block ends the candidate: there is one, and the incremented silence count has reached MIN_SILENCE
(R185, R186). -/
def silenceEnds (p : Params) (d : DecoderState) : Bool :=
  d.activeDigit != 0 && decide (p.minSilence ≤ (satInc p d.silenceCount).toNat)

/-- The silence branch, n == 0 (R184-R186): the state after it, and the published code (0 = nothing published). -/
def debounceSilence (p : Params) (d : DecoderState) : DecoderState × Code :=
  if silenceEnds p d then
    ({ activeDigit := 0, activeCount := 0, silenceCount := satInc p d.silenceCount },
      if p.minTone ≤ d.activeCount.toNat then d.activeDigit else 0)
  else ({ d with silenceCount := satInc p d.silenceCount }, 0)

/-- Debounce (R180, R187): the next state and the published code. Nothing is published in the tone branch (R183). -/
def debounce (p : Params) (d : DecoderState) (n : Code) : DecoderState × Code :=
  if n = 0 then debounceSilence p d else (debounceTone p d n, 0)

/-- The debouncer over the codes of consecutive blocks: the final state and the code each block publishes, in order. -/
def debounceRun (p : Params) (d : DecoderState) : List Code → DecoderState × List Code
  | [] => (d, [])
  | n :: ns =>
    let s := debounce p d n
    let rest := debounceRun p s.1 ns
    (rest.1, s.2 :: rest.2)

end Sys2Proof.Machine
end

