-- ==== Sys2Proof/Machine/Estimator.lean ====
section
/-! DEFINITION. ToneEnergyEstimator: the bank of seven fixed-point Goertzel filters (41_tone_energy_estimator.md). -/

namespace Sys2Proof.Machine

/-- GoertzelStep (R132): `q0 = x + asr(c*q1, STEP_SHIFT) - q2`; the new `q1` is `q0` and the new `q2` is the old `q1`. -/
def goertzelStep (p : Params) (q1 q2 x : Int) (c : Nat) : Int × Int :=
  (x + asr (c * q1) p.stepShift - q2, q1)

/-- `raw` of R133: 2^STEP_SHIFT times the magnitude-squared estimate. -/
def energyRaw (p : Params) (q1 q2 : Int) (c : Nat) : Int :=
  2 ^ p.stepShift * (q1 * q1 + q2 * q2) - c * q1 * q2

/-- EnergyOut (R133): the scale is removed in the final division, and the result saturates at ENERGY_MAX. -/
def energyOut (p : Params) (q1 q2 : Int) (c : Nat) : Byte :=
  BitVec.ofInt 8 (clamp (asr (energyRaw p q1 q2 c) (p.stepShift + p.energyShift)) 0 p.energyMax)

/-- The filter of one tone after the centred samples `xs`, from "two accumulators at zero" (R134). -/
def filterRun (p : Params) (t : Tone) (xs : List Int) : Int × Int :=
  xs.foldl (fun q x => goertzelStep p q.1 q.2 x (p.coef.get t)) (0, 0)

/-- Estimate (R134): the energies of a block of centred samples. -/
def estimate (p : Params) (xs : List Int) : Bank Byte :=
  Bank.ofFn fun t => energyOut p (filterRun p t xs).1 (filterRun p t xs).2 (p.coef.get t)

/-- The new `Q1` bank of an accepted sample (R111, R138: all seven filters receive the same centred sample). -/
def nextQ1 (p : Params) (r : Regs) (x : Int) : Bank Int :=
  Bank.ofFn fun t => (goertzelStep p (r.q1.get t) (r.q2.get t) x (p.coef.get t)).1

/-- The new `Q2` bank of an accepted sample (R111). -/
def nextQ2 (p : Params) (r : Regs) (x : Int) : Bank Int :=
  Bank.ofFn fun t => (goertzelStep p (r.q1.get t) (r.q2.get t) x (p.coef.get t)).2

/-- The energies of a block from its final recursion values (R112, R133). -/
def bankEnergies (p : Params) (q1 q2 : Bank Int) : Bank Byte :=
  Bank.ofFn fun t => energyOut p (q1.get t) (q2.get t) (p.coef.get t)

end Sys2Proof.Machine
end

