-- ==== Sys2Proof/Machine/Pipeline.lean ====
section
/-! DEFINITION. Sample ingestion and block completion (40_pipeline.md R111, R112) with the diagnostic dump
(45_host_interface.md R226), and the meaning of SAMPLE. -/

namespace Sys2Proof.Machine

/-- DebugLatch (R226): while `DBG_REMAIN` is non-zero, a completed block's energies are latched and the count goes down. -/
def Regs.debugLatch (r : Regs) (e : Bank Byte) : Regs :=
  if r.dbgRemain = 0 then r else { r with energy := e, dbgRemain := r.dbgRemain - 1 }

/-- Whether DebugLatch latches: the `energy_valid` pulse (R227). -/
def debugLatches (r : Regs) : Bool := r.dbgRemain != 0

/-- publish when Debounce returned a code, else the slot as it is (R112, R204). -/
def Regs.publishIf (r : Regs) (pub : Code) : Regs := if pub = 0 then r else r.publish pub

/-- DecoderState after a block (R112). -/
def Regs.setDecoder (r : Regs) (d : DecoderState) : Regs := { r with dec := d }

/-- The recursion registers and the sample index after an accepted sample. -/
def Regs.setFilters (r : Regs) (q1 q2 : Bank Int) (idx : BitVec 7) : Regs := { r with q1 := q1, q2 := q2, idx := idx }

/-- The `pub_valid`, `pub_code` and `energy_valid` outputs of a step (R227, R228). -/
def State.setPulses (s : State) (pub : Code) (latched : Bool) : State :=
  { s with out := { s.out with pubValid := pub != 0, pubCode := pub, energyValid := latched } }

/-- What Debounce answers for a block with the energies `e` (R112, R114). -/
def blockVerdict (p : Params) (r : Regs) (e : Bank Byte) : DecoderState × Code := debounce p r.dec (classify p e)

/-- BlockComplete (R112) on recursion values that include the block's last sample: estimate, classify, debounce, publish,
dump, and zero the filters and the index, all in this step. -/
def blockComplete (p : Params) (nq1 nq2 : Bank Int) (s : State) : State :=
  let e := bankEnergies p nq1 nq2
  let v := blockVerdict p s.regs e
  (s.setRegs ((((s.regs.setDecoder v.1).publishIf v.2).debugLatch e).setFilters (Bank.const 0) (Bank.const 0) 0)).setPulses
    v.2 (debugLatches s.regs)

/-- `IDX == N_BLOCK - 1`: the sample accepted now is the block's last (R111). -/
def lastOfBlock (p : Params) (r : Regs) : Bool := r.idx.toNat == p.nBlock - 1

/-- `Sample(u)` of R111 for a step that does not drop it: ignored while disabled, one filter step for each tone otherwise. -/
def acceptSample (p : Params) (u : Byte) (s : State) : State :=
  let nq1 := nextQ1 p s.regs (center p u)
  let nq2 := nextQ2 p s.regs (center p u)
  if s.regs.enabled then
    if lastOfBlock p s.regs then blockComplete p nq1 nq2 s
    else s.setRegs (s.regs.setFilters nq1 nq2 (s.regs.idx + 1))
  else s

/-- SAMPLE (R111) at the core's parameters. Every sample value is legal (R260). -/
def execSample (u : Byte) (s : State) : Result := .next (acceptSample Config.params u s)

end Sys2Proof.Machine
end

