-- ==== Sys2Proof/Machine/Dispatch.lean ====
section
/-! DEFINITION. One meaning for each operation of spec/opcode_table.json. -/

namespace Sys2Proof.Machine

-- The effect of one operation within a step that has begun; Ports.lean says how the two ports' operations combine (R230).
def exec (i : Instr) (s : State) : Host.Outcome State Fault Refusal :=
  match i with
  | .rdCtrl => Sys2Proof.Machine.execRdCtrl s
  | .wrCtrl d => Sys2Proof.Machine.execWrCtrl d s
  | .rdStatus => Sys2Proof.Machine.execRdStatus s
  | .rdDigit => Sys2Proof.Machine.execRdDigit s
  | .rdErrcause => Sys2Proof.Machine.execRdErrcause s
  | .rdDbgcnt => Sys2Proof.Machine.execRdDbgcnt s
  | .wrDbgcnt d => Sys2Proof.Machine.execWrDbgcnt d s
  | .rdEnergy0 => Sys2Proof.Machine.execRdEnergy0 s
  | .rdEnergy1 => Sys2Proof.Machine.execRdEnergy1 s
  | .rdEnergy2 => Sys2Proof.Machine.execRdEnergy2 s
  | .rdEnergy3 => Sys2Proof.Machine.execRdEnergy3 s
  | .rdEnergy4 => Sys2Proof.Machine.execRdEnergy4 s
  | .rdEnergy5 => Sys2Proof.Machine.execRdEnergy5 s
  | .rdEnergy6 => Sys2Proof.Machine.execRdEnergy6 s
  | .sample u => Sys2Proof.Machine.execSample u s

end Sys2Proof.Machine
end

