-- ==== Sys2Proof/Machine/Ports.lean ====
section
/-! DEFINITION. One step's inputs: how the command and the sample presented in the same step combine
(45_host_interface.md R230, 60_exceptions.md R264). -/

namespace Sys2Proof.Machine

/-- What a step performs: operations, and illegal commands that it records. -/
inductive Event where
  | op (i : Instr)
  | illegal (c : Cause)
deriving DecidableEq, Repr

/-- The sample port's operation of a step (R86): none when `sample_valid = 0`. -/
def sampleEvents (inp : StepInput) : List Event := if inp.sampleValid then [.op (.sample inp.sampleU8)] else []

/-- A step's events in the order in which their effects combine. DEDUCED from R230 (log 6): a command is performed before the
sample of its step, so that it reads the pre-step state and a take comes before a publish (R204); WR DBGCNT is performed after
it, so that the dump tests the pre-step count and the write wins (R224); WR CTRL drops the sample (R111); an illegal command
leaves it alone (R263). -/
def commandEvents (d : Decoded) (samples : List Event) : List Event :=
  match d with
  | .illegal c => .illegal c :: samples
  | .op (.wrCtrl v) => [.op (.wrCtrl v)]
  | .op (.wrDbgcnt v) => samples ++ [.op (.wrDbgcnt v)]
  | .op i => .op i :: samples

/-- The events of a step without reset; with `cmd_valid = 0` the step has no command (R80). -/
def stepEvents (inp : StepInput) : List Event :=
  if inp.cmdValid then commandEvents (decodeCmd inp.cmd) (sampleEvents inp) else sampleEvents inp

/-- The events in order, each on the state the one before it left. -/
def runEvents : List Event → State → Result
  | [], s => .next s
  | .illegal c :: es, s => runEvents es (raiseIllegal c s)
  | .op i :: es, s =>
    match exec i s with
    | .next t => runEvents es t
    | .fault r => .fault r
    | .refused r => .refused r

/-- One step with the inputs `inp` (R230): the outputs start anew, and reset overrides both ports (R281). -/
def portStep (inp : StepInput) (s : State) : Result :=
  if inp.rst then .next (hardwareReset (beginStep s)) else runEvents (stepEvents inp) (beginStep s)

/-- The inputs that present a port word alone in a step: the command with `cmd_valid = 1`, the sample with
`sample_valid = 1` (R80, R86). -/
def portInput : PortWord → StepInput
  | .cmd w => { cmdValid := true, cmd := w }
  | .sample u => { sampleValid := true, sampleU8 := u }

end Sys2Proof.Machine
end

