-- ==== Sys2Proof/Machine/Step.lean ====
section
/-! DEFINITION. One step of the machine on the inputs that wait in State, and where a word of the opcode table is placed so
that the very next step runs it. -/

namespace Sys2Proof.Machine

/-- The ports' values in the next step: the head of the waiting inputs, or idle ports when nothing waits (log 1). -/
def State.ports (s : State) : StepInput :=
  match s.inputs with
  | [] => {}
  | inp :: _ => inp

/-- The state once the next step's inputs are off the list. -/
def State.advance (s : State) : State := { s with inputs := s.inputs.tail }

/-- One clock edge (45_host_interface.md R215, R230). -/
def step (s : State) : Host.Outcome State Fault Refusal := portStep s.ports s.advance

/-- The state whose very next step presents the table word `w` of `nbits` bits, alone, on its port; the inputs that waited
stay behind it. A width that is no operation's presents nothing (log 8). -/
def State.withFetchWord (s : State) (nbits w : Nat) : State :=
  match portWordOfTable nbits w with
  | none => s
  | some pw => { s with inputs := portInput pw :: s.inputs }

end Sys2Proof.Machine
end

