-- ==== Sys2Proof/Machine/Rule230.lean ====
section
/-! DEFINITION. The step function of 45_host_interface.md R230 read line by line, on the pre-step registers `S` and one step's
inputs: every read is of `S`, every write is of the post-step registers. The machine's own step (Step.lean) is built from the
operations' meanings; this is the monolithic text that it is held against. -/

namespace Sys2Proof.Machine

/-- The registers and the outputs after the command part of R230's `case op of`, with the two local names it sets:
`take` and `dbg_write`. -/
structure CommandPart where
  regs : Regs
  out : Outputs
  take : Bool
  dbgWrite : Option Byte
  /-- WR CTRL returns at once: the sample of the step is dropped. -/
  done : Bool
deriving DecidableEq, Repr

/-- R230 up to `let pub = 0`. -/
def rule230Command (S : Regs) (inp : StepInput) : CommandPart :=
  let quiet : Outputs := ⟨0, S.mailbox != 0, false, 0, false⟩
  let none' : CommandPart := ⟨S, quiet, false, none, false⟩
  let reads (v : Byte) : CommandPart := { none' with out := { quiet with rdata := v } }
  let cleared (en : Bool) : CommandPart :=
    { none' with
      regs := { S with enabled := en, idx := 0, q1 := Bank.const 0, q2 := Bank.const 0, dec := ⟨0, 0, 0⟩, mailbox := 0 }
      done := true }
  if inp.cmdValid then
    match decodeCmd inp.cmd with
    | .illegal c => if S.errcause = 0 then { none' with regs := { S with errcause := c.code } } else none'
    | .op .rdCtrl => reads ((0 : BitVec 7) ++ BitVec.ofBool S.enabled)
    | .op .rdStatus =>
      reads ((0 : BitVec 4) ++ BitVec.ofBool (S.dbgRemain != 0) ++ BitVec.ofBool (S.errcause != 0) ++
        BitVec.ofBool (S.mailbox != 0) ++ BitVec.ofBool S.enabled)
    | .op .rdDigit => { reads (S.mailbox.setWidth 8) with take := true }
    | .op .rdErrcause => reads (S.errcause.setWidth 8)
    | .op .rdDbgcnt => reads S.dbgRemain
    | .op .rdEnergy0 => reads S.energy.r1
    | .op .rdEnergy1 => reads S.energy.r2
    | .op .rdEnergy2 => reads S.energy.r3
    | .op .rdEnergy3 => reads S.energy.r4
    | .op .rdEnergy4 => reads S.energy.c1
    | .op .rdEnergy5 => reads S.energy.c2
    | .op .rdEnergy6 => reads S.energy.c3
    | .op (.wrCtrl d) => if d.getLsbD 0 then cleared true else cleared false
    | .op (.wrDbgcnt d) => { none' with dbgWrite := some d }
    | .op (.sample _) => none'
  else none'

/-- R230 from `let pub = 0` on. -/
def rule230Sample (p : Params) (S : Regs) (inp : StepInput) (c : CommandPart) : Regs × Outputs :=
  let x := center p inp.sampleU8
  let nq1 := Bank.ofFn fun t => (goertzelStep p (S.q1.get t) (S.q2.get t) x (p.coef.get t)).1
  let nq2 := Bank.ofFn fun t => (goertzelStep p (S.q1.get t) (S.q2.get t) x (p.coef.get t)).2
  let e := Bank.ofFn fun t => energyOut p (nq1.get t) (nq2.get t) (p.coef.get t)
  let verdict := debounce p S.dec (classify p e)
  let accepts := inp.sampleValid && S.enabled
  let completes := accepts && S.idx.toNat == p.nBlock - 1
  let pub : Code := if completes then verdict.2 else 0
  let latched := completes && S.dbgRemain != 0
  ({ c.regs with
      dec := if completes then verdict.1 else c.regs.dec
      energy := if latched then e else c.regs.energy
      q1 := if completes then Bank.const 0 else if accepts then nq1 else c.regs.q1
      q2 := if completes then Bank.const 0 else if accepts then nq2 else c.regs.q2
      idx := if completes then 0 else if accepts then S.idx + 1 else c.regs.idx
      mailbox := if pub ≠ 0 then pub else if c.take then 0 else S.mailbox
      dbgRemain := match c.dbgWrite with
        | some d => d
        | none => if latched then S.dbgRemain - 1 else S.dbgRemain },
    { c.out with pubValid := pub != 0, pubCode := pub, energyValid := latched })

/-- `Step(S, in) -> (S', out)` of R230; `RESET_STATE` is R280's. -/
def rule230Step (p : Params) (S : Regs) (inp : StepInput) : Regs × Outputs :=
  if inp.rst then (Regs.reset, ⟨0, S.mailbox != 0, false, 0, false⟩)
  else
    let c := rule230Command S inp
    if c.done then (c.regs, c.out) else rule230Sample p S inp c

end Sys2Proof.Machine
end

