-- ==== Sys2Proof/Machine/Stimulus.lean ====
section
/-! DEFINITION. Stimulus programs: the lines of 30_encoding.md R91, their assembly into port values, and the
pseudo-operations of R92. The lines are written as terms, not as text (DESIGN CHOICE, log 16): labels and comments of R91
carry no meaning. -/

namespace Sys2Proof.Machine

/-- A command as written: `RD <reg>`, `WR <reg>, <imm8>`, or a raw 16-bit word (R91). A write to a read-only register can be
written; it assembles to an illegal word (R93). -/
inductive AsmCommand where
  | rd (r : RegName)
  | wr (r : RegName) (imm : Nat)
  | raw (w : Nat)
deriving DecidableEq, Repr

/-- A line of a stimulus program (R91): `S <u8>`, `C <command>`, `S <u8> | C <command>`, `IDLE`, `RST`. -/
inductive Line where
  | s (u : Nat)
  | c (cmd : AsmCommand)
  | sc (u : Nat) (cmd : AsmCommand)
  | idle
  | rst
deriving DecidableEq, Repr

/-- `<imm8>` is 0..255 and a raw word has 16 bits (R91). -/
def AsmCommand.wf : AsmCommand → Bool
  | .rd _ => true
  | .wr _ imm => decide (imm ≤ 255)
  | .raw w => decide (w ≤ 0xFFFF)

/-- `<u8>` is 0..255 (R91). -/
def Line.wf : Line → Bool
  | .s u => decide (u ≤ 255)
  | .c cmd => cmd.wf
  | .sc u cmd => decide (u ≤ 255) && cmd.wf
  | .idle => true
  | .rst => true

/-- The assembled word: `{W, 0b000, ADDR, DATA}` with `DATA = 0` for `RD` (R91). -/
def AsmCommand.word : AsmCommand → CmdWord
  | .rd r => assembleCmd false r 0
  | .wr r imm => assembleCmd true r (BitVec.ofNat 8 imm)
  | .raw w => BitVec.ofNat 16 w

/-- The port values of a line's step (R91). -/
def Line.input : Line → StepInput
  | .s u => { sampleValid := true, sampleU8 := BitVec.ofNat 8 u }
  | .c cmd => { cmdValid := true, cmd := cmd.word }
  | .sc u cmd => { sampleValid := true, sampleU8 := BitVec.ofNat 8 u, cmdValid := true, cmd := cmd.word }
  | .idle => {}
  | .rst => { rst := true }

/-- `<n> x ( ... )`: the enclosed steps n times (R91). -/
def repeatLines (n : Nat) (ls : List Line) : List Line := (List.replicate n ls).flatten

/-- `BLOCK <name>`: the `S` steps of a block's samples (R91). -/
def blockLines (us : List Nat) : List Line := us.map Line.s

/-- `BLOCK <name>[a..b]`: the `S` steps of samples a to b only (R91). -/
def blockPart (us : List Nat) (a b : Nat) : List Line := blockLines ((us.drop a).take (b + 1 - a))

/-- The machine with a program's steps waiting after what already waits. -/
def State.present (s : State) (ls : List Line) : State := { s with inputs := s.inputs ++ ls.map Line.input }

/-- `INIT` = `C WR CTRL, 0x01` (R92). -/
def Line.init : Line := .c (.wr .ctrl 1)

/-- `DISABLE` = `C WR CTRL, 0x00` (R92). -/
def Line.disable : Line := .c (.wr .ctrl 0)

/-- `TAKE` = `C RD DIGIT` (R92). -/
def Line.take : Line := .c (.rd .digit)

/-- `DEBUG <k>` = `C WR DBGCNT, <k>` (R92). -/
def Line.debug (k : Nat) : Line := .c (.wr .dbgcnt k)

/-- `PUSH <u8>` = `S <u8>` (R92). -/
def Line.push (u : Nat) : Line := .s u

/-- `POLL` = `C RD STATUS` (R92). -/
def Line.poll : Line := .c (.rd .status)

end Sys2Proof.Machine
end

