-- ==== Sys2Proof/Machine/Symbols.lean ====
section
/-! DEFINITION. The data encodings that a client reads codes with: the symbol table (30_encoding.md R88), the tones of a code
(R88, 41_tone_energy_estimator.md R130) and the characters of R89. No step of the core reads them. -/

namespace Sys2Proof.Machine

/-- The digit symbol of a code (R88); code 0 is "none" and 13..15 are never produced (R87). The character values are R89's,
from general knowledge (PRESUMED by the spec, log 15). -/
def symbolOf (c : Code) : Option Char :=
  match c.toNat with
  | 1 => some '1'
  | 2 => some '2'
  | 3 => some '3'
  | 4 => some '4'
  | 5 => some '5'
  | 6 => some '6'
  | 7 => some '7'
  | 8 => some '8'
  | 9 => some '9'
  | 10 => some '*'
  | 11 => some '0'
  | 12 => some '#'
  | _ => none

/-- The row tone of a code: the "row tone" line of R88. -/
def rowToneOf (c : Code) : Option Tone :=
  match c.toNat with
  | 1 | 2 | 3 => some .r1
  | 4 | 5 | 6 => some .r2
  | 7 | 8 | 9 => some .r3
  | 10 | 11 | 12 => some .r4
  | _ => none

/-- The column tone of a code: the "column tone" line of R88. -/
def columnToneOf (c : Code) : Option Tone :=
  match c.toNat with
  | 1 | 4 | 7 | 10 => some .c1
  | 2 | 5 | 8 | 11 => some .c2
  | 3 | 6 | 9 | 12 => some .c3
  | _ => none

/-- The frequency of a tone in Hz (R130). -/
def toneHertz : Tone → Nat
  | .r1 => 697
  | .r2 => 770
  | .r3 => 852
  | .r4 => 941
  | .c1 => 1209
  | .c2 => 1336
  | .c3 => 1477

end Sys2Proof.Machine
end

