-- ==== Sys2Proof/Safety.lean ====
section
/-! DEFINITION. What holds of the core in every state a run can reach, and what a clean run is. -/

namespace Sys2Proof.Machine

/-- The decoder holds nothing: no partial block, no candidate, no pending digit (10_state.md R36). -/
def Regs.Quiet (r : Regs) : Prop :=
  r.idx = 0 ∧ r.q1 = Bank.const 0 ∧ r.q2 = Bank.const 0 ∧ r.dec = ⟨0, 0, 0⟩ ∧ r.mailbox = 0

/-- The invariants of the registers at the core's parameters: the legal values of R20, and R21, R26 and R36. -/
structure Regs.Inv (r : Regs) : Prop where
  /-- `IDX` "never holds N_BLOCK" (R23). -/
  idx_lt : r.idx.toNat < Config.params.nBlock
  /-- `ACTIVE_DIGIT` holds a provisional code (R25). -/
  digit_le : r.dec.activeDigit.toNat ≤ 12
  /-- The slot holds 0 or one confirmed code (R200). -/
  mailbox_le : r.mailbox.toNat ≤ 12
  /-- R26. -/
  digit_zero_iff : r.dec.activeDigit = 0 ↔ r.dec.activeCount = 0
  /-- A candidate is cleared when the silence count reaches MIN_SILENCE (DEDUCED from R184-R186). -/
  candidate_recent : r.dec.activeDigit ≠ 0 → r.dec.silenceCount.toNat < Config.params.minSilence
  /-- When `IDX = 0` all recursion registers hold 0 (R21). -/
  fresh : r.idx = 0 → r.q1 = Bank.const 0 ∧ r.q2 = Bank.const 0
  /-- R36. -/
  disabled_quiet : r.enabled = false → r.Quiet

/-- The recursion registers are what the filters hold after the samples `us` of the current block: `us` has `IDX` samples, and
every filter has run over them, centred, from zero (R21, R113, R115). -/
def Regs.StreamsBlock (r : Regs) (us : List Byte) : Prop :=
  us.length = r.idx.toNat ∧
    ∀ t, (r.q1.get t, r.q2.get t) = filterRun Config.params t (us.map (center Config.params))

/-- The registers are in step with some partial block. -/
def Regs.Streaming (r : Regs) : Prop := r.idx.toNat < Config.params.nBlock ∧ ∃ us, r.StreamsBlock us

/-- The states a run from reset can reach, whatever inputs are presented. -/
inductive Reachable : State → Prop where
  | start (inputs : List StepInput) : Reachable { State.reset with inputs := inputs }
  | next {s t : State} : Reachable s → step s = .next t → Reachable t

/-- `k` steps from `s` end with no illegal command recorded: the premise every claim about a client takes
(93_implementation_defined.md E1). -/
def EndsClean (k : Nat) (s : State) : Prop :=
  ∃ t, Host.Core.run Sys2Proof.core k s = .next t ∧ t.regs.errcause = 0

end Sys2Proof.Machine
end

