-- ==== Sys2Proof/WellFormed.lean ====
section
/-! DEFINITION. What a well-formed operation and a well-formed parameter record are. -/

namespace Sys2Proof

/-- Every operand is an 8-bit unsigned value (30_encoding.md R81, R86). The operands' type carries the check, so every
operation is well formed: the decoder has no ill-formed operation to give. -/
def Instr.wf : Instr → Bool
  | .wrCtrl d => decide (d.toNat < 256)
  | .wrDbgcnt d => decide (d.toNat < 256)
  | .sample u => decide (u.toNat < 256)
  | .rdCtrl | .rdStatus | .rdDigit | .rdErrcause | .rdDbgcnt => true
  | .rdEnergy0 | .rdEnergy1 | .rdEnergy2 | .rdEnergy3 | .rdEnergy4 | .rdEnergy5 | .rdEnergy6 => true

/-- The records of parameters that the register widths of 10_state.md R20 and the primitives of 00_scope.md R9 admit:
`IDX` has 7 bits, energies and duration counters have 8, `//` is used only with a positive divisor, a centred sample is no
larger than the port can give, and the port widths are those of the word types. -/
def Params.wf (p : Params) : Bool :=
  decide (0 < p.nBlock) && decide (p.nBlock ≤ 128) && decide (p.energyMax ≤ 255) && decide (p.countMax ≤ 255) &&
    decide (0 < p.crossDiv) && decide (p.sampleLim ≤ 127) && decide (p.cmdWidth = 16) && decide (p.dataWidth = 8) &&
    decide (p.addrWidth = 4)

end Sys2Proof
end

