-- ==== Sys2Proof/Certificates/Slice0/Obligations.lean ====
section
/-! DEFINITION. The statements for the provers, from the numbered rules of spec/, and the few names they are written with. -/

open Sys2Proof Sys2Proof.Machine

/-! ### Names the statements share -/

/-- The state a step's operations act on: the step's inputs are off the list and its outputs have started anew, with
`digit_pending` at the level of the pre-step mailbox (R206, R230). -/
def Sys2Proof.Machine.State.begun (s : State) : State :=
  { regs := s.regs
    out := { rdata := 0, digitPending := s.regs.mailbox != 0, pubValid := false, pubCode := 0, energyValid := false }
    inputs := s.inputs.tail }

/-- The same state, but the next step presents no command: its sample and its reset are as they were. -/
def Sys2Proof.Machine.State.withoutCommand (s : State) : State :=
  match s.inputs with
  | [] => s
  | inp :: rest => { s with inputs := { inp with cmdValid := false } :: rest }

/-- Whether a step's inputs hold a legal WR CTRL command. -/
def Sys2Proof.Machine.StepInput.isLifecycle (inp : StepInput) : Bool :=
  inp.cmdValid &&
    match decodeCmd inp.cmd with
    | .op (.wrCtrl _) => true
    | _ => false

/-- Whether a step's inputs hold the take, RD DIGIT. -/
def Sys2Proof.Machine.StepInput.isTake (inp : StepInput) : Bool :=
  inp.cmdValid &&
    match decodeCmd inp.cmd with
    | .op .rdDigit => true
    | _ => false

/-- Whether a step accepts a sample that completes a block: no reset, no lifecycle write, a sample while enabled, and
`IDX = N_BLOCK - 1` (R111). -/
def Sys2Proof.Machine.State.completesBlock (s : State) : Bool :=
  !s.ports.rst && !s.ports.isLifecycle && s.ports.sampleValid && s.regs.enabled && s.regs.idx == 99

/-- The filters' values after one more sample: `q0` of R132 for every tone at the default STEP_SHIFT, `//` being floor
division. -/
def Sys2Proof.Machine.Regs.q1After (r : Regs) (u : Byte) : Bank Int :=
  Bank.ofFn fun t =>
    center Config.params u + Int.fdiv (Config.params.coef.get t * r.q1.get t) 64 - r.q2.get t

/-- The energies of the block that the sample `u` completes: the new `q2` is the old `q1` (R132, R133). -/
def Sys2Proof.Machine.Regs.energiesAfter (r : Regs) (u : Byte) : Bank Byte :=
  Bank.ofFn fun t => energyOut Config.params ((r.q1After u).get t) (r.q1.get t) (Config.params.coef.get t)

/-- What the debouncer answers for that block (R112). -/
def Sys2Proof.Machine.Regs.verdictAfter (r : Regs) (u : Byte) : DecoderState × Code :=
  debounce Config.params r.dec (classify Config.params (r.energiesAfter u))

/-- A read command sees the pre-step value `v`, and a sample of the same step is processed as if the command were not there:
the step is the command-free step with `rdata` set. -/
def ReadsPreStepValue (n : RegName) (v : Regs → Byte) : Prop :=
  ∀ (s : State) (inp : StepInput) (rest : List StepInput) (t : State),
    s.inputs = inp :: rest → inp.rst = false → inp.cmdValid = true → decodeCmd inp.cmd = .op (readOp n) →
      step s.withoutCommand = .next t → step s = .next { t with out := { t.out with rdata := v s.regs } }

/-- The bounds B_t of R135. -/
def recursionBound : Bank Int := ⟨15686, 14299, 13132, 12219, 10082, 8577, 8894⟩

/-- The inputs of a step that presents a sample alone. -/
def sampleStep (u : Byte) : StepInput := { sampleValid := true, sampleU8 := u }

/-- The energies of a block of raw samples: Estimate of the centred samples (R134). -/
def blockEnergies (us : List Byte) : Bank Byte := estimate Config.params (us.map (center Config.params))

/-- The registers but for the two the dump writes. -/
def Sys2Proof.Machine.Regs.withoutDump (r : Regs) : Regs := { r with dbgRemain := 0, energy := Bank.const 0 }

/-! ### Parameters, encodings and data tables -/

/-- The configuration record's default is the table of 00_scope.md section 4, and the record passes the model's own check of
what the register widths admit (log entry 7: the check is the model's choice). -/
def Obligations.DefaultParametersAreTheSpecsTable : Prop :=
  Config.params =
      { nBlock := 100, fsNominal := 8000, coefScale := 128, coef := ⟨109, 105, 100, 95, 75, 64, 51⟩, stepShift := 6,
        energyShift := 15, energyMax := 255, sampleLim := 127, minColValue := 60, minRowValue := 60, crossDiv := 3,
        fwdTwist := 50, revTwist := 38, twistDen := 256, minTone := 3, maxToneDropout := 2, minSilence := 4,
        countMax := 255, qWidth := 16, cmdWidth := 16, dataWidth := 8, addrWidth := 4 } ∧
    Config.params.wf = true

/-- Decode of encode is the operation itself, every operand at every value its field admits. -/
def Obligations.DecodeOfEncodeIsTheOperation : Prop :=
  ∀ i : Instr, i.wf = true → decode (encode i) = .op i

/-- A legal word is its operation's encoding but for the DATA bits a read ignores; a write's word is its encoding whole. -/
def Obligations.LegalWordIsItsEncodingUpToIgnoredData : Prop :=
  ∀ (w : CmdWord) (i : Instr), decodeCmd w = .op i →
    ∃ w', encode i = .cmd w' ∧ w' &&& 0xFF00 = w &&& 0xFF00 ∧ (w.getLsbD 15 = true → w' = w)

/-- R82: a word is legal exactly when `cmd[15:8]` is one of the 14 rows, it selects the row's operation, the rows are
distinct, and a row's pattern is its W and ADDR with RSV and DATA 0. -/
def Obligations.LegalCommandsAreTheOperationMap : Prop :=
  opMap.length = 14 ∧
    opMap.Pairwise (fun a b => a.pattern ≠ b.pattern) ∧
    (∀ row ∈ opMap, row.pattern = BitVec.ofBool row.write ++ 0#3 ++ row.addr ++ 0#8) ∧
    ∀ w : CmdWord,
      (∀ row ∈ opMap, w &&& 0xFF00 = row.pattern → ∃ i, decodeCmd w = .op i ∧ i.mnemonic = row.mnemonic) ∧
        (∀ i, decodeCmd w = .op i → ∃ row ∈ opMap, w &&& 0xFF00 = row.pattern ∧ i.mnemonic = row.mnemonic)

/-- R261: which words are illegal with which cause, the causes' codes, and what is recorded: the cause code only. -/
def Obligations.IllegalCommandCauses : Prop :=
  (∀ w : CmdWord,
      (decodeCmd w = .illegal .rsvBits ↔ w.extractLsb' 12 3 ≠ 0) ∧
        (decodeCmd w = .illegal .badAddr ↔
          w.extractLsb' 12 3 = 0 ∧ w.extractLsb' 8 4 ∈ ([0x5, 0x6, 0x7, 0xF] : List RegAddr)) ∧
        (decodeCmd w = .illegal .badDir ↔
          w.extractLsb' 12 3 = 0 ∧ w.getLsbD 15 = true ∧
            w.extractLsb' 8 4 ∈ ([0x1, 0x2, 0x3, 0x8, 0x9, 0xA, 0xB, 0xC, 0xD, 0xE] : List RegAddr))) ∧
    Cause.code .rsvBits = 1 ∧ Cause.code .badAddr = 2 ∧ Cause.code .badDir = 3 ∧
    ∀ c s, (raiseIllegal c s).regs =
      { s.regs with errcause := if s.regs.errcause = 0 then c.code else s.regs.errcause }

/-- Words written out from R80's fields: one for each operation of the map, the port word of a sample, and R93's worked
encodings (an inference the spec marks as derived). -/
def Obligations.WordsDecodeAsWorked : Prop :=
  decodeCmd 0b0000000000000000 = .op .rdCtrl ∧ decodeCmd 0b1000000000000001 = .op (.wrCtrl 1) ∧
    decodeCmd 0b0000000100000000 = .op .rdStatus ∧ decodeCmd 0b0000001000000000 = .op .rdDigit ∧
    decodeCmd 0b0000001011111111 = .op .rdDigit ∧ decodeCmd 0b0000001100000000 = .op .rdErrcause ∧
    decodeCmd 0b0000010000000000 = .op .rdDbgcnt ∧ decodeCmd 0b1000010000000111 = .op (.wrDbgcnt 7) ∧
    decodeCmd 0b0000100000000000 = .op .rdEnergy0 ∧ decodeCmd 0b0000110100000000 = .op .rdEnergy5 ∧
    decodeCmd 0b0000111000000000 = .op .rdEnergy6 ∧ decodeCmd 0x8100 = .illegal .badDir ∧
    decodeCmd 0x1200 = .illegal .rsvBits ∧ decodeCmd 0x0600 = .illegal .badAddr ∧
    decodeCmd 0x9100 = .illegal .rsvBits ∧ decode (.sample 200) = .op (.sample 200)

/-- R92: the pseudo-operations' words and ports. -/
def Obligations.PseudoOperationsAssemble : Prop :=
  Line.init.input = { cmdValid := true, cmd := 0x8001 } ∧
    Line.disable.input = { cmdValid := true, cmd := 0x8000 } ∧
    Line.take.input = { cmdValid := true, cmd := 0x0200 } ∧
    (∀ k : Nat, k ≤ 255 → (Line.debug k).input = { cmdValid := true, cmd := 0x8400 ||| BitVec.ofNat 16 k }) ∧
    (∀ u : Byte, (Line.push u.toNat).input = { sampleValid := true, sampleU8 := u }) ∧
    Line.poll.input = { cmdValid := true, cmd := 0x0100 }

/-- R88: the symbol, the row tone and the column tone of every code. -/
def Obligations.SymbolTable : Prop :=
  (List.range 16).map (fun n => symbolOf (BitVec.ofNat 4 n)) =
      [none, some '1', some '2', some '3', some '4', some '5', some '6', some '7', some '8', some '9', some '*', some '0',
        some '#', none, none, none] ∧
    (List.range 16).map (fun n => (rowToneOf (BitVec.ofNat 4 n)).map toneHertz) =
      [none, some 697, some 697, some 697, some 770, some 770, some 770, some 852, some 852, some 852, some 941, some 941,
        some 941, none, none, none] ∧
    (List.range 16).map (fun n => (columnToneOf (BitVec.ofNat 4 n)).map toneHertz) =
      [none, some 1209, some 1336, some 1477, some 1209, some 1336, some 1477, some 1209, some 1336, some 1477, some 1209,
        some 1336, some 1477, none, none, none]

/-! ### The units of the sample path -/

/-- R110: centering, its range, and its examples; only u = 0 is affected by the clamp. -/
def Obligations.CenterSubtractsAndClamps : Prop :=
  (∀ u : Byte, center Config.params u = if (u.toNat : Int) - 128 = -128 then -127 else (u.toNat : Int) - 128) ∧
    (∀ u : Byte, -127 ≤ center Config.params u ∧ center Config.params u ≤ 127) ∧
    (∀ u : Byte, center Config.params u ≠ (u.toNat : Int) - 128 ↔ u = 0) ∧
    center Config.params 0 = -127 ∧ center Config.params 1 = -127 ∧ center Config.params 128 = 0 ∧
    center Config.params 255 = 127 ∧ center Config.params 129 = 1 ∧ center Config.params 127 = -1

/-- The recursion step of 41_tone_energy_estimator.md section 2: the product is rescaled by 64 rounding toward minus
infinity, and the new q2 is the old q1; with the section's examples. -/
def Obligations.GoertzelStepFloorsTheProduct : Prop :=
  (∀ (q1 q2 x : Int) (c : Nat),
      goertzelStep Config.params q1 q2 x c = (x + Int.fdiv (c * q1) 64 - q2, q1)) ∧
    (∀ (q1 q2 x : Int) (c : Nat),
      64 * ((goertzelStep Config.params q1 q2 x c).1 + q2 - x) ≤ c * q1 ∧
        c * q1 < 64 * ((goertzelStep Config.params q1 q2 x c).1 + q2 - x) + 64) ∧
    asr (-1090) 6 = -18 ∧ goertzelStep Config.params 10 0 (-5) 109 = (12, 10) ∧
    goertzelStep Config.params (-10) 3 4 109 = (-17, -10)

/-- The energy output of 41_tone_energy_estimator.md section 3: 64 times the magnitude-squared estimate divided by 2^21 and
saturated at 255; with the table's coefficients `raw` is never negative and bounded from below as the section derives, the
saturation begins at 256 * 2^21 and the energy 60 at 60 * 2^21. -/
def Obligations.EnergyOutScalesAndSaturates : Prop :=
  (∀ (q1 q2 : Int) (c : Nat), energyRaw Config.params q1 q2 c = 64 * (q1 * q1 + q2 * q2) - c * q1 * q2) ∧
    (∀ (q1 q2 : Int) (c : Nat),
      ((energyOut Config.params q1 q2 c).toNat : Int) =
        min (max (Int.fdiv (energyRaw Config.params q1 q2 c) 2097152) 0) 255) ∧
    (∀ (t : Tone) (q1 q2 : Int),
      (128 - (Config.params.coef.get t : Int)) * (q1 * q1 + q2 * q2) ≤
          2 * energyRaw Config.params q1 q2 (Config.params.coef.get t) ∧
        0 ≤ energyRaw Config.params q1 q2 (Config.params.coef.get t) ∧
        (536870912 ≤ energyRaw Config.params q1 q2 (Config.params.coef.get t) →
          energyOut Config.params q1 q2 (Config.params.coef.get t) = 255) ∧
        (125829120 ≤ energyRaw Config.params q1 q2 (Config.params.coef.get t) ↔
          60 ≤ (energyOut Config.params q1 q2 (Config.params.coef.get t)).toNat)) ∧
    energyOut Config.params 1000 500 64 = 22 ∧ energyOut Config.params 2896 0 75 = 255 ∧
    energyOut Config.params 2897 0 75 = 255 ∧ energyOut Config.params 3000 (-2000) 109 = 255

/-- The selection trees of 42_digit_classifier.md sections 1 to 3 find a maximum, and of several the one with the lowest
index. -/
def Obligations.WinnersAreLowestIndexMaxima : Prop :=
  ∀ e : Bank Byte,
    (columnWinner e ∈ columnLevels e ∧
        ∀ l ∈ columnLevels e,
          l.1 ≤ (columnWinner e).1 ∧ (l.1 = (columnWinner e).1 → (columnWinner e).2 ≤ l.2)) ∧
      (rowWinner e ∈ rowLevels e ∧
        ∀ l ∈ rowLevels e, l.1 ≤ (rowWinner e).1 ∧ (l.1 = (rowWinner e).1 → (rowWinner e).2 ≤ l.2))

/-- At the default parameters a block is the digit n exactly when n's row tone and column tone each have energy at least 60
and every other tone of the same group has at most a third of it (integer division): what Classify's four steps come to. -/
def Obligations.ClassifyAcceptsExactlyDominantPairs : Prop :=
  ∀ (e : Bank Byte) (n : Code), n ≠ 0 →
    (classify Config.params e = n ↔
      ∃ r c, rowToneOf n = some r ∧ columnToneOf n = some c ∧
        60 ≤ (e.get r).toNat ∧ 60 ≤ (e.get c).toNat ∧
        (∀ t ∈ [Tone.r1, .r2, .r3, .r4], t ≠ r → (e.get t).toNat ≤ (e.get r).toNat / 3) ∧
        (∀ t ∈ [Tone.c1, .c2, .c3], t ≠ c → (e.get t).toNat ≤ (e.get c).toNat / 3))

/-- Classify gives 0 or one of the 12 codes at any parameters, and at the defaults it gives each of them for some energies
(an inference the spec marks as derived, 42_digit_classifier.md section 7). -/
def Obligations.ClassifyRangeIsTheCodes : Prop :=
  (∀ (p : Params) (e : Bank Byte), (classify p e).toNat ≤ 12) ∧
    ∀ n : Code, n.toNat ≤ 12 → ∃ e, classify Config.params e = n

/-- Two candidates that tie at the maximum of a group are rejected, whichever wins the tie, when CROSS_DIV >= 2 and the
group's threshold is at least 1 (an inference the spec marks as derived, 42_digit_classifier.md section 7). -/
def Obligations.TiesAtTheMaximumAreRejected : Prop :=
  ∀ (p : Params) (e : Bank Byte), 2 ≤ p.crossDiv →
    (1 ≤ p.minColValue →
        (∃ a ∈ columnLevels e, ∃ b ∈ columnLevels e,
          a.2 ≠ b.2 ∧ a.1 = (columnWinner e).1 ∧ b.1 = (columnWinner e).1) →
        classify p e = 0) ∧
      (1 ≤ p.minRowValue →
        (∃ a ∈ rowLevels e, ∃ b ∈ rowLevels e, a.2 ≠ b.2 ∧ a.1 = (rowWinner e).1 ∧ b.1 = (rowWinner e).1) →
        classify p e = 0)

/-- R158-R160: exactly one of the two twist tests applies to the winning energies, each is strict, equality passes, and a block
that fails it is rejected; with the rules' examples. -/
def Obligations.TwistTestsAreStrict : Prop :=
  (∀ (p : Params) (cs rs : Nat), cs > rs → (twistRejects p cs rs = true ↔ cs * p.fwdTwist > rs * p.twistDen)) ∧
    (∀ (p : Params) (cs rs : Nat), rs ≥ cs → (twistRejects p cs rs = true ↔ rs * p.revTwist > cs * p.twistDen)) ∧
    (∀ (p : Params) (e : Bank Byte),
      twistRejects p (columnWinner e).1 (rowWinner e).1 = true → classify p e = 0) ∧
    Config.params.fwdTwist = 50 ∧ Config.params.revTwist = 38 ∧ Config.params.twistDen = 256 ∧
    twistRejects Config.params 128 25 = false ∧ twistRejects Config.params 128 24 = true ∧
    twistRejects Config.params 19 128 = false ∧ twistRejects Config.params 18 128 = true

/-- The twist tests can reject only where an energy at the ceiling can beat one at the threshold; with the default
parameters they never do (an inference the spec marks as derived, 42_digit_classifier.md section 7, 90_conflicts.md C4). -/
def Obligations.TwistIsLiveOnlyUnderOtherThresholds : Prop :=
  (∀ (p : Params) (cs rs : Nat), p.minColValue ≤ cs → cs ≤ p.energyMax → p.minRowValue ≤ rs → rs ≤ p.energyMax →
      twistRejects p cs rs = true →
        p.energyMax * p.fwdTwist > p.minRowValue * p.twistDen ∨ p.energyMax * p.revTwist > p.minColValue * p.twistDen) ∧
    ∀ cs rs : Nat, 60 ≤ cs → cs ≤ 255 → 60 ≤ rs → rs ≤ 255 → twistRejects Config.params cs rs = false

/-- R181-R183: a block with a tone continues the run, or starts a new candidate and discards the old one, clears the silence
count, and publishes nothing. -/
def Obligations.ToneBlockContinuesOrRestarts : Prop :=
  ∀ (p : Params) (d : DecoderState) (n : Code), n ≠ 0 →
    (n = d.activeDigit ∧ d.silenceCount.toNat ≤ p.maxToneDropout →
        debounce p d n =
          ({ activeDigit := d.activeDigit, activeCount := BitVec.ofNat 8 (min (d.activeCount.toNat + 1) p.countMax),
             silenceCount := 0 }, 0)) ∧
      (n ≠ d.activeDigit ∨ d.silenceCount.toNat > p.maxToneDropout →
        debounce p d n = ({ activeDigit := n, activeCount := 1, silenceCount := 0 }, 0))

/-- R184-R186: a block without a tone counts silence; at MIN_SILENCE the candidate is cleared, and published when it has
MIN_TONE counted blocks. -/
def Obligations.SilenceBlockConfirmsOrWaits : Prop :=
  ∀ (p : Params) (d : DecoderState), p.countMax ≤ 255 →
    ∃ sc : Byte, sc.toNat = min (d.silenceCount.toNat + 1) p.countMax ∧
      (d.activeDigit ≠ 0 → p.minSilence ≤ sc.toNat → p.minTone ≤ d.activeCount.toNat →
          debounce p d 0 = ({ activeDigit := 0, activeCount := 0, silenceCount := sc }, d.activeDigit)) ∧
        (d.activeDigit ≠ 0 → p.minSilence ≤ sc.toNat → d.activeCount.toNat < p.minTone →
          debounce p d 0 = ({ activeDigit := 0, activeCount := 0, silenceCount := sc }, 0)) ∧
        (d.activeDigit = 0 ∨ sc.toNat < p.minSilence →
          debounce p d 0 =
            ({ activeDigit := d.activeDigit, activeCount := d.activeCount, silenceCount := sc }, 0))

/-- An unbroken tone counts to 255 and stays there, unbroken silence too, and a tone of any length from 3 blocks on is
published once, by the fourth silent block (an inference the spec marks as derived, 43_duration_debouncer.md section 4). -/
def Obligations.CountersSaturateAndNeverWrap : Prop :=
  (∀ (n : Code) (k : Nat), n ≠ 0 → 1 ≤ k →
      (debounceRun Config.params ⟨0, 0, 0⟩ (List.replicate k n)).1 = ⟨n, BitVec.ofNat 8 (min k 255), 0⟩) ∧
    (∀ k : Nat, (debounceRun Config.params ⟨0, 0, 0⟩ (List.replicate k 0)).1 = ⟨0, 0, BitVec.ofNat 8 (min k 255)⟩) ∧
    ∀ (n : Code) (k : Nat), n ≠ 0 → 3 ≤ k →
      (debounceRun Config.params ⟨0, 0, 0⟩ (List.replicate k n ++ [0, 0, 0, 0])).2 = List.replicate (k + 3) 0 ++ [n]

/-- Two publishes are at least 7 blocks apart, from any state of the debouncer (an inference the spec marks as derived,
43_duration_debouncer.md section 4). -/
def Obligations.PublishesAreSevenBlocksApart : Prop :=
  ∀ (d : DecoderState) (codes : List Code) (i j : Nat), i < j →
    (debounceRun Config.params d codes).2.getD i 0 ≠ 0 →
      (debounceRun Config.params d codes).2.getD j 0 ≠ 0 → i + 7 ≤ j

/-- A digit is published only in the fourth consecutive silent block after a block of that digit, and only when it was
heard in at least 3 blocks (an inference from R181-R186; 43_duration_debouncer.md section 4 marks the first half as
derived). -/
def Obligations.PublishedDigitWasHeardAndThenSilent : Prop :=
  ∀ (codes : List Code) (n : Code), n ≠ 0 →
    (debounceRun Config.params ⟨0, 0, 0⟩ codes).2.getLast? = some n →
      ∃ before, codes = before ++ [n, 0, 0, 0, 0] ∧ 3 ≤ (before ++ [n]).count n

/-- The worked traces of 43_duration_debouncer.md section 4 (marked as derived there), for every digit n. -/
def Obligations.WorkedDebounceTraces : Prop :=
  ∀ n : Code, n ≠ 0 →
    debounceRun Config.params ⟨0, 0, 0⟩ [n, n, n, 0, 0, 0, 0] = (⟨0, 0, 4⟩, [0, 0, 0, 0, 0, 0, n]) ∧
      debounceRun Config.params ⟨0, 0, 0⟩ [n, n, n, 0, 0, n] = (⟨n, 4, 0⟩, [0, 0, 0, 0, 0, 0]) ∧
      debounceRun Config.params ⟨0, 0, 0⟩ [n, n, 0, 0, 0, 0] = (⟨0, 0, 4⟩, [0, 0, 0, 0, 0, 0]) ∧
      debounceRun Config.params ⟨0, 0, 0⟩ [n, 0, n, 0, n, 0, 0, 0, 0] = (⟨0, 0, 4⟩, [0, 0, 0, 0, 0, 0, 0, 0, n])

/-! ### The commands -/

/-- R216. -/
def Obligations.RdCtrlReadsEnabled : Prop :=
  (∀ d : Byte, decodeCmd (0x00#8 ++ d) = .op .rdCtrl) ∧
    (∀ s, exec .rdCtrl s =
      .next { s with out := { s.out with rdata := 0#7 ++ BitVec.ofBool s.regs.enabled } }) ∧
    ReadsPreStepValue .ctrl (fun r => 0#7 ++ BitVec.ofBool r.enabled) ∧
    ∀ s t u, exec (.wrCtrl 1) s = .next t → exec .rdCtrl t = .next u → u.out.rdata = 0x01

/-- R220. -/
def Obligations.RdStatusReadsTheFlags : Prop :=
  (∀ d : Byte, decodeCmd (0x01#8 ++ d) = .op .rdStatus) ∧
    (∀ s, exec .rdStatus s =
      .next
        { s with
          out :=
            { s.out with
              rdata :=
                0#4 ++ BitVec.ofBool (s.regs.dbgRemain != 0) ++ BitVec.ofBool (s.regs.errcause != 0) ++
                  BitVec.ofBool (s.regs.mailbox != 0) ++ BitVec.ofBool s.regs.enabled } }) ∧
    ReadsPreStepValue .status (fun r =>
      0#4 ++ BitVec.ofBool (r.dbgRemain != 0) ++ BitVec.ofBool (r.errcause != 0) ++ BitVec.ofBool (r.mailbox != 0) ++
        BitVec.ofBool r.enabled) ∧
    ∀ s t, s.regs.enabled = true → s.regs.mailbox ≠ 0 → s.regs.errcause = 0 → s.regs.dbgRemain = 0 →
      exec .rdStatus s = .next t → t.out.rdata = 0x03

/-- R202, R204, R221: take, alone and in the step of a publish: the read returns the pre-step slot, and the slot ends the
step with the code published in it, if any, else empty. While disabled the slot is empty, by R36's invariant. -/
def Obligations.RdDigitTakesBeforeAPublish : Prop :=
  (∀ d : Byte, decodeCmd (0x02#8 ++ d) = .op .rdDigit) ∧
    (∀ s, exec .rdDigit s =
      .next
        { s with
          regs := { s.regs with mailbox := 0 }
          out := { s.out with rdata := 0#4 ++ s.regs.mailbox } }) ∧
    (∀ (s : State) (inp : StepInput) (rest : List StepInput) (t : State),
      s.inputs = inp :: rest → inp.rst = false → inp.cmdValid = true → decodeCmd inp.cmd = .op .rdDigit →
        step s.withoutCommand = .next t →
          step s =
            .next
              { t with
                regs := { t.regs with mailbox := if t.out.pubValid then t.out.pubCode else 0 }
                out := { t.out with rdata := 0#4 ++ s.regs.mailbox } }) ∧
    (∀ s t u, exec .rdDigit s = .next t → exec .rdDigit t = .next u → u.out.rdata = 0 ∧ u.regs.mailbox = 0) ∧
    (∀ s t, s.regs.Inv → s.regs.enabled = false → exec .rdDigit s = .next t → t.out.rdata = 0) ∧
    ∀ s t, s.regs.mailbox = 12 → exec .rdDigit s = .next t → t.out.rdata = 0x0C ∧ t.regs.mailbox = 0

/-- R222. -/
def Obligations.RdErrcauseReadsTheLatch : Prop :=
  (∀ d : Byte, decodeCmd (0x03#8 ++ d) = .op .rdErrcause) ∧
    (∀ s, exec .rdErrcause s = .next { s with out := { s.out with rdata := 0#6 ++ s.regs.errcause } }) ∧
    ReadsPreStepValue .errcause (fun r => 0#6 ++ r.errcause) ∧
    ∀ s t, s.regs.errcause = 0 → decodeCmd 0x0600 = .illegal .badAddr ∧
      (exec .rdErrcause (raiseIllegal .badAddr s) = .next t → t.out.rdata = 0x02)

/-- R223. -/
def Obligations.RdDbgcntReadsTheCount : Prop :=
  (∀ d : Byte, decodeCmd (0x04#8 ++ d) = .op .rdDbgcnt) ∧
    (∀ s, exec .rdDbgcnt s = .next { s with out := { s.out with rdata := s.regs.dbgRemain } }) ∧
    ReadsPreStepValue .dbgcnt (fun r => r.dbgRemain) ∧
    ∀ s x t u v, s.regs.enabled = true → s.regs.idx = 99 → exec (.wrDbgcnt 3) s = .next t →
      exec (.sample x) t = .next u → exec .rdDbgcnt u = .next v → v.out.rdata = 0x02

/-- R225, for each of the seven tones; what the registers hold is the last dumped block's energies, or 0 from reset on. -/
def Obligations.RdEnergyReadsTheLatchedEnergy : Prop :=
  (∀ d : Byte,
      decodeCmd (0x08#8 ++ d) = .op .rdEnergy0 ∧ decodeCmd (0x09#8 ++ d) = .op .rdEnergy1 ∧
        decodeCmd (0x0A#8 ++ d) = .op .rdEnergy2 ∧ decodeCmd (0x0B#8 ++ d) = .op .rdEnergy3 ∧
        decodeCmd (0x0C#8 ++ d) = .op .rdEnergy4 ∧ decodeCmd (0x0D#8 ++ d) = .op .rdEnergy5 ∧
        decodeCmd (0x0E#8 ++ d) = .op .rdEnergy6) ∧
    (∀ s,
      exec .rdEnergy0 s = .next { s with out := { s.out with rdata := s.regs.energy.r1 } } ∧
        exec .rdEnergy1 s = .next { s with out := { s.out with rdata := s.regs.energy.r2 } } ∧
        exec .rdEnergy2 s = .next { s with out := { s.out with rdata := s.regs.energy.r3 } } ∧
        exec .rdEnergy3 s = .next { s with out := { s.out with rdata := s.regs.energy.r4 } } ∧
        exec .rdEnergy4 s = .next { s with out := { s.out with rdata := s.regs.energy.c1 } } ∧
        exec .rdEnergy5 s = .next { s with out := { s.out with rdata := s.regs.energy.c2 } } ∧
        exec .rdEnergy6 s = .next { s with out := { s.out with rdata := s.regs.energy.c3 } }) ∧
    (∀ t : Tone, ReadsPreStepValue (.energy t) (fun r => r.energy.get t)) ∧
    State.reset.regs.energy = Bank.const 0 ∧
    (∀ s t, step s = .next t →
      t.regs.energy =
        if s.ports.rst then Bank.const 0
        else if s.completesBlock && s.regs.dbgRemain != 0 then s.regs.energiesAfter s.ports.sampleU8
        else s.regs.energy) ∧
    ∀ s t, s.regs.energy = ⟨5, 114, 0, 0, 2, 118, 2⟩ → exec .rdEnergy5 s = .next t → t.out.rdata = 0x76

/-- R217, R218: WR CTRL restarts the decoder, INIT when bit 0 of its DATA is set and DISABLE when it is clear, whatever the other
bits are; it reads 0x00, and a sample of its step is dropped: the step is that command alone. -/
def Obligations.WrCtrlRestartsTheDecoder : Prop :=
  (∀ d : Byte, decodeCmd (0x80#8 ++ d) = .op (.wrCtrl d)) ∧
    (∀ (d : Byte) (s : State),
      exec (.wrCtrl d) s =
        .next
          { s with
            regs :=
              { enabled := d.getLsbD 0, idx := 0, q1 := Bank.const 0, q2 := Bank.const 0, dec := ⟨0, 0, 0⟩, mailbox := 0,
                dbgRemain := s.regs.dbgRemain, energy := s.regs.energy, errcause := s.regs.errcause }
            out := { s.out with rdata := 0 } }) ∧
    ∀ (s : State) (inp : StepInput) (rest : List StepInput) (d : Byte),
      s.inputs = inp :: rest → inp.rst = false → inp.cmdValid = true → decodeCmd inp.cmd = .op (.wrCtrl d) →
        step s = exec (.wrCtrl d) s.begun

/-- R219: WR CTRL with bit 0 clear performs DISABLE; a second DISABLE leaves the same registers, and a take after it
returns 0x00. -/
def Obligations.WrCtrlDisableStopsTheDecoder : Prop :=
  (∀ (d : Byte) (s : State), d.getLsbD 0 = false →
      exec (.wrCtrl d) s =
        .next
          { s with
            regs :=
              { enabled := false, idx := 0, q1 := Bank.const 0, q2 := Bank.const 0, dec := ⟨0, 0, 0⟩, mailbox := 0,
                dbgRemain := s.regs.dbgRemain, energy := s.regs.energy, errcause := s.regs.errcause }
            out := { s.out with rdata := 0 } }) ∧
    (∀ s t u, exec (.wrCtrl 0) s = .next t → exec (.wrCtrl 0) t = .next u → u = t) ∧
    (∀ s t x, exec (.wrCtrl 0) s = .next t → exec (.sample x) t = .next t) ∧
    ∀ s t u, exec (.wrCtrl 0) s = .next t → exec .rdDigit t = .next u → u.out.rdata = 0

/-- R224: the write stores DATA, reads 0x00, and in a step with a sample it wins over the dump's decrement: the step is the
command-free step (which dumps by the pre-step count) with `DBG_REMAIN` equal to DATA. -/
def Obligations.WrDbgcntWinsOverTheDecrement : Prop :=
  (∀ d : Byte, decodeCmd (0x84#8 ++ d) = .op (.wrDbgcnt d)) ∧
    (∀ (d : Byte) (s : State), exec (.wrDbgcnt d) s =
      .next { s with regs := { s.regs with dbgRemain := d }, out := { s.out with rdata := 0 } }) ∧
    (∀ (s : State) (inp : StepInput) (rest : List StepInput) (d : Byte) (t : State),
      s.inputs = inp :: rest → inp.rst = false → inp.cmdValid = true → decodeCmd inp.cmd = .op (.wrDbgcnt d) →
        step s.withoutCommand = .next t → step s = .next { t with regs := { t.regs with dbgRemain := d } }) ∧
    ∀ (s t : State), s.completesBlock = true → step s = .next t →
      (t.out.energyValid = true ↔ s.regs.dbgRemain ≠ 0) ∧
        t.regs.energy = if s.regs.dbgRemain = 0 then s.regs.energy else s.regs.energiesAfter s.ports.sampleU8

/-! ### SAMPLE -/

/-- R111: a sample is ignored while disabled, advances every filter and `IDX` inside a block, completes the block as its
N_BLOCK-th, is dropped in the step of a legal WR CTRL, and is ignored in a reset step. -/
def Obligations.SampleAdvancesOrCompletes : Prop :=
  (∀ (u : Byte) (s : State), s.regs.enabled = false → exec (.sample u) s = .next s) ∧
    (∀ (u : Byte) (s : State), s.regs.enabled = true → s.regs.idx ≠ 99 →
      exec (.sample u) s =
        .next { s with regs := { s.regs with q1 := s.regs.q1After u, q2 := s.regs.q1, idx := s.regs.idx + 1 } }) ∧
    (∀ (u : Byte) (s : State), s.regs.enabled = true → s.regs.idx = 99 →
      exec (.sample u) s = .next (blockComplete Config.params (s.regs.q1After u) s.regs.q1 s)) ∧
    (∀ (s : State) (inp : StepInput) (rest : List StepInput) (d : Byte),
      s.inputs = inp :: rest → inp.rst = false → inp.cmdValid = true → decodeCmd inp.cmd = .op (.wrCtrl d) →
        step s = exec (.wrCtrl d) s.begun) ∧
    (∀ (s : State) (inp : StepInput) (rest : List StepInput), s.inputs = inp :: rest → inp.rst = true →
      step s = .next { s.begun with regs := Regs.reset }) ∧
    (∀ (s t : State), s.regs.enabled = true → s.regs.idx = 5 → exec (.sample 200) s = .next t →
      t.regs.idx = 6 ∧
        ∀ a, t.regs.q1.get a = 72 + Int.fdiv (Config.params.coef.get a * s.regs.q1.get a) 64 - s.regs.q2.get a) ∧
    center Config.params 0 = -127 ∧ center Config.params 1 = -127

/-- R112: block completion, register for register and output for output: estimate, classify, debounce, publish, dump, and the
filters and the index zeroed in the same step; with the energies and the code of block B5 from its final recursion values
(95_test_vectors.md EO-6 to EO-12). -/
def Obligations.LastSampleCompletesTheBlock : Prop :=
  (∀ (u : Byte) (s : State), s.regs.enabled = true → s.regs.idx = 99 →
      exec (.sample u) s =
        .next
          { s with
            regs :=
              { s.regs with
                idx := 0
                q1 := Bank.const 0
                q2 := Bank.const 0
                dec := (s.regs.verdictAfter u).1
                mailbox := if (s.regs.verdictAfter u).2 ≠ 0 then (s.regs.verdictAfter u).2 else s.regs.mailbox
                energy := if s.regs.dbgRemain ≠ 0 then s.regs.energiesAfter u else s.regs.energy
                dbgRemain := if s.regs.dbgRemain ≠ 0 then s.regs.dbgRemain - 1 else 0 }
            out :=
              { s.out with
                pubValid := (s.regs.verdictAfter u).2 != 0
                pubCode := (s.regs.verdictAfter u).2
                energyValid := s.regs.dbgRemain != 0 } }) ∧
    bankEnergies Config.params ⟨-284, 1835, 58, -4, 198, 919, -259⟩ ⟨-654, 3129, 158, 20, -89, 2258, -261⟩ =
      ⟨5, 114, 0, 0, 2, 118, 2⟩ ∧
    classify Config.params ⟨5, 114, 0, 0, 2, 118, 2⟩ = 5

/-! ### The step -/

/-- A step that presents one port word alone runs the operation it decodes to, on the begun state. -/
def Obligations.StepRunsTheDecodedOperation : Prop :=
  ∀ (s : State) (pw : PortWord) (rest : List StepInput) (i : Instr),
    s.inputs = portInput pw :: rest → decode pw = .op i → step s = exec i s.begun

/-- A step that presents a legal command and a sample runs both operations: the command first, but WR DBGCNT second, and WR
CTRL alone (the order is the model's reading of R230, log entry 6). -/
def Obligations.StepRunsBothPortsOperations : Prop :=
  ∀ (s : State) (inp : StepInput) (rest : List StepInput) (i : Instr),
    s.inputs = inp :: rest → inp.rst = false → inp.cmdValid = true → inp.sampleValid = true → decodeCmd inp.cmd = .op i →
      ((∀ d, i ≠ .wrCtrl d) → (∀ d, i ≠ .wrDbgcnt d) →
          ∃ t, exec i s.begun = .next t ∧ step s = exec (.sample inp.sampleU8) t) ∧
        (∀ d, i = .wrDbgcnt d →
          ∃ t, exec (.sample inp.sampleU8) s.begun = .next t ∧ step s = exec (.wrDbgcnt d) t) ∧
        ∀ d, i = .wrCtrl d → step s = exec (.wrCtrl d) s.begun

/-- A table word placed as the next input is run by the very next step; what waited stays behind it (the placing is the
model's, log entry 8). -/
def Obligations.PlacedWordIsRunNext : Prop :=
  ∀ (s : State) (nbits w : Nat) (i : Instr), decodeTableWord nbits w = some i →
    step (s.withFetchWord nbits w) =
      exec i
        { s with
          out := { rdata := 0, digitPending := s.regs.mailbox != 0, pubValid := false, pubCode := 0, energyValid := false } }

/-- R281: reset overrides both ports; `digit_pending` shows the pre-step slot in the reset step and 0 in the next. -/
def Obligations.ResetStepOverridesThePorts : Prop :=
  ∀ (s : State) (inp : StepInput) (rest : List StepInput), s.inputs = inp :: rest → inp.rst = true →
    step s =
        .next
          { regs := Regs.reset
            out := { rdata := 0, digitPending := s.regs.mailbox != 0, pubValid := false, pubCode := 0, energyValid := false }
            inputs := rest } ∧
      ∀ t u, step s = .next t → step t = .next u → u.out.digitPending = false

/-- R280: the reset state, and the same registers after INIT and after DISABLE. -/
def Obligations.ResetStateValues : Prop :=
  State.reset.regs =
      { enabled := false, idx := 0, q1 := Bank.const 0, q2 := Bank.const 0, dec := ⟨0, 0, 0⟩, mailbox := 0, dbgRemain := 0,
        energy := Bank.const 0, errcause := 0 } ∧
    ∀ (s : State),
      (∃ t, exec (.wrCtrl 1) s = .next t ∧
        t.regs = { State.reset.regs with
          enabled := true, dbgRemain := s.regs.dbgRemain, energy := s.regs.energy, errcause := s.regs.errcause }) ∧
        ∃ t, exec (.wrCtrl 0) s = .next t ∧
          t.regs = { State.reset.regs with
            enabled := false, dbgRemain := s.regs.dbgRemain, energy := s.regs.energy, errcause := s.regs.errcause }

/-- With no command and no sample, or a sample while disabled, a step leaves the registers unchanged and every pulse and
`rdata` 0 (an inference the spec marks as derived, 45_host_interface.md section 5); so does a step for which no input
waits, the model's idle step (log entry 1). -/
def Obligations.IdleStepChangesNothing : Prop :=
  ∀ s : State, s.ports.rst = false → s.ports.cmdValid = false → (s.ports.sampleValid = false ∨ s.regs.enabled = false) →
    step s =
      .next
        { regs := s.regs
          out := { rdata := 0, digitPending := s.regs.mailbox != 0, pubValid := false, pubCode := 0, energyValid := false }
          inputs := s.inputs.tail }

/-- R263: an illegal command latches the first cause and does nothing else: the step is the command-free step, sample
and all, with the latch set. -/
def Obligations.IllegalCommandOnlyLatchesItsCause : Prop :=
  ∀ (s : State) (inp : StepInput) (rest : List StepInput) (c : Cause) (t : State),
    s.inputs = inp :: rest → inp.rst = false → inp.cmdValid = true → decodeCmd inp.cmd = .illegal c →
      step s.withoutCommand = .next t →
        step s =
            .next
              { t with
                regs := { t.regs with errcause := if s.regs.errcause = 0 then c.code else s.regs.errcause }
                out := { t.out with rdata := 0 } } ∧
          t.out.rdata = 0

/-- R230: the machine's step, built from the operations' meanings, is the spec's step function, registers and outputs. -/
def Obligations.StepIsTheSpecsStepFunction : Prop :=
  ∀ s : State,
    step s =
      .next
        { regs := (rule230Step Config.params s.regs s.ports).1
          out := (rule230Step Config.params s.regs s.ports).2
          inputs := s.inputs.tail }

/-- No step hangs, stalls or refuses: every step and every operation answers a next state (an inference the spec marks as
derived, 45_host_interface.md section 5). -/
def Obligations.EveryStepAndOperationCompletes : Prop :=
  (∀ s : State, ∃ t, step s = .next t) ∧ ∀ (i : Instr) (s : State), ∃ t, exec i s = .next t

/-! ### Invariants -/

/-- The invariants of 10_state.md hold of the reset state, and its filters are in step with an empty block. -/
def Obligations.InvariantsHoldAtReset : Prop :=
  State.reset.regs.Inv ∧ State.reset.regs.Streaming

/-- Every step keeps the legal values of the registers, R26 and R36, from any state that has them (R20, R23, R25, R200; the
spec marks R26 and R36 as derived, and the bound on the silence count of a candidate is DEDUCED). -/
def Obligations.EveryStepKeepsTheInvariants : Prop :=
  ∀ s t : State, s.regs.Inv → step s = .next t → t.regs.Inv

/-- Every step keeps the recursion registers equal to the filters run over the samples of the current block: streaming is
the block-at-a-time estimate (an inference the spec marks as derived, 40_pipeline.md section 3). -/
def Obligations.EveryStepKeepsTheFiltersInStep : Prop :=
  ∀ s t : State, s.regs.Streaming → step s = .next t → t.regs.Streaming

/-- No recursion value of a block's centred samples leaves the bounds B_t, the product needs at most 22 bits and `raw` at
most 37, signed (an inference the spec marks as derived, 41_tone_energy_estimator.md section 5). -/
def Obligations.RecursionStaysWithinItsBounds : Prop :=
  ∀ (t : Tone) (xs : List Int), xs.length ≤ 100 → (∀ x ∈ xs, -127 ≤ x ∧ x ≤ 127) →
    |(filterRun Config.params t xs).1| ≤ recursionBound.get t ∧
      |(filterRun Config.params t xs).2| ≤ recursionBound.get t ∧
      |(Config.params.coef.get t : Int) * (filterRun Config.params t xs).1| < 2 ^ 21 ∧
      |energyRaw Config.params (filterRun Config.params t xs).1 (filterRun Config.params t xs).2
          (Config.params.coef.get t)| < 2 ^ 36

/-- In every state a run from reset can reach, whatever the inputs, each recursion register fits in Q_WIDTH = 16 signed
bits: the model's exact integers are the hardware's registers (log entry 3). -/
def Obligations.ReachableRecursionRegistersFitTheirWidth : Prop :=
  ∀ s : State, Reachable s → ∀ t : Tone,
    (-(2 ^ (Config.params.qWidth - 1)) ≤ s.regs.q1.get t ∧ s.regs.q1.get t < 2 ^ (Config.params.qWidth - 1)) ∧
      (-(2 ^ (Config.params.qWidth - 1)) ≤ s.regs.q2.get t ∧ s.regs.q2.get t < 2 ^ (Config.params.qWidth - 1))

/-- Every step from registers that are in step with the current block's samples leaves registers that are, and every recursion
register then fits in Q_WIDTH = 16 signed bits (an inference the spec marks as derived, 41_tone_energy_estimator.md section 5;
log entry 3). -/
def Obligations.EveryStepKeepsTheFiltersInTheirWidth : Prop :=
  ∀ s t : State, s.regs.Streaming → step s = .next t →
    t.regs.Streaming ∧
      ∀ a : Tone,
        (-(2 ^ (Config.params.qWidth - 1)) ≤ t.regs.q1.get a ∧ t.regs.q1.get a < 2 ^ (Config.params.qWidth - 1)) ∧
          (-(2 ^ (Config.params.qWidth - 1)) ≤ t.regs.q2.get a ∧ t.regs.q2.get a < 2 ^ (Config.params.qWidth - 1))

/-! ### Blocks -/

/-- 100 samples in consecutive steps from a block boundary are one block: its energies are Estimate's, its code Classify's,
and DecoderState, the slot and the dump change once, by that code (an inference the spec marks as derived, 40_pipeline.md
section 3). -/
def Obligations.HundredSamplesAreOneBlock : Prop :=
  ∀ (s : State) (us : List Byte) (rest : List StepInput),
    s.regs.enabled = true → s.regs.idx = 0 → s.regs.q1 = Bank.const 0 → s.regs.q2 = Bank.const 0 → us.length = 100 →
      s.inputs = us.map sampleStep ++ rest →
        ∃ t, Host.Core.run Sys2Proof.core 100 s = .next t ∧ t.inputs = rest ∧
          t.regs =
            { s.regs with
              dec := (debounce Config.params s.regs.dec (classify Config.params (blockEnergies us))).1
              mailbox :=
                if (debounce Config.params s.regs.dec (classify Config.params (blockEnergies us))).2 ≠ 0 then
                  (debounce Config.params s.regs.dec (classify Config.params (blockEnergies us))).2
                else s.regs.mailbox
              energy := if s.regs.dbgRemain ≠ 0 then blockEnergies us else s.regs.energy
              dbgRemain := if s.regs.dbgRemain ≠ 0 then s.regs.dbgRemain - 1 else 0 } ∧
          t.out.pubCode = (debounce Config.params s.regs.dec (classify Config.params (blockEnergies us))).2 ∧
          t.out.energyValid = (s.regs.dbgRemain != 0)

/-- Consecutive blocks are decoded in order, none lost and none twice: DecoderState after any number of them is the
debouncer run over their codes, and the slot holds the last published digit (an inference from 40_pipeline.md section 3). -/
def Obligations.ConsecutiveBlocksAreDecodedInOrder : Prop :=
  ∀ (s : State) (blocks : List (List Byte)) (rest : List StepInput),
    s.regs.enabled = true → s.regs.idx = 0 → s.regs.q1 = Bank.const 0 → s.regs.q2 = Bank.const 0 →
      (∀ b ∈ blocks, b.length = 100) → s.inputs = blocks.flatten.map sampleStep ++ rest →
        ∃ t, Host.Core.run Sys2Proof.core (100 * blocks.length) s = .next t ∧ t.inputs = rest ∧
          t.regs.enabled = true ∧ t.regs.idx = 0 ∧
          t.regs.dec =
            (debounceRun Config.params s.regs.dec
              (blocks.map fun b => classify Config.params (blockEnergies b))).1 ∧
          t.regs.mailbox =
            ((debounceRun Config.params s.regs.dec
                (blocks.map fun b => classify Config.params (blockEnergies b))).2.foldl
              (fun slot pub => if pub ≠ 0 then pub else slot) s.regs.mailbox)

/-! ### Whole-machine promises -/

/-- `ENABLED` changes only by WR CTRL, to the command's bit 0, or by reset (60_exceptions.md section 9, 10_state.md
section 7). -/
def Obligations.EnabledChangesOnlyByLifecycleOrReset : Prop :=
  ∀ s t : State, step s = .next t → t.regs.enabled ≠ s.regs.enabled →
    s.ports.rst = true ∨
      (s.ports.cmdValid = true ∧ ∃ d, decodeCmd s.ports.cmd = .op (.wrCtrl d) ∧ t.regs.enabled = d.getLsbD 0)

/-- R114: DecoderState changes only in a block's completion, once, as a function of itself and the block's code, and by
INIT, DISABLE and reset, which clear it. -/
def Obligations.DecoderStateChangesOncePerBlock : Prop :=
  ∀ s t : State, step s = .next t →
    t.regs.dec =
      if s.ports.rst || s.ports.isLifecycle then ⟨0, 0, 0⟩
      else if s.completesBlock then (s.regs.verdictAfter s.ports.sampleU8).1
      else s.regs.dec

/-- R203, R204, R206, R227, R228: the pulses are those of a completing block, whoever reads; a lifecycle write or a reset clears
the slot, and without one it ends a step with the published code, else empty after a take, else unchanged; the take returns the
pre-step slot; `digit_pending` is the pre-step level, which STATUS.PENDING shows. -/
def Obligations.MailboxChangesOnlyByPublishTakeAndReset : Prop :=
  (∀ s t : State, step s = .next t →
      t.regs.mailbox =
          (if s.ports.rst || s.ports.isLifecycle then 0
          else if t.out.pubValid then t.out.pubCode
          else if s.ports.isTake then 0
          else s.regs.mailbox) ∧
        (s.ports.rst = false → s.ports.isTake = true → t.out.rdata = 0#4 ++ s.regs.mailbox) ∧
        t.out.pubCode = (if s.completesBlock then (s.regs.verdictAfter s.ports.sampleU8).2 else 0) ∧
        t.out.pubValid = (t.out.pubCode != 0) ∧
        t.out.energyValid = (s.completesBlock && s.regs.dbgRemain != 0) ∧
        t.out.digitPending = (s.regs.mailbox != 0)) ∧
    ∀ s t : State, exec .rdStatus s = .next t → t.out.rdata.getLsbD 1 = (s.regs.mailbox != 0)

/-- R262, over all steps: reset clears the latch, the first illegal command sets it, nothing else changes it, and STATUS.ERR
shows it. -/
def Obligations.ErrcauseHoldsTheFirstCauseUntilReset : Prop :=
  (∀ s t : State, step s = .next t →
      t.regs.errcause =
        if s.ports.rst then 0
        else if s.regs.errcause ≠ 0 then s.regs.errcause
        else if s.ports.cmdValid then
          match decodeCmd s.ports.cmd with
          | .illegal c => c.code
          | .op _ => 0
        else 0) ∧
    ∀ s t : State, exec .rdStatus s = .next t → t.out.rdata.getLsbD 2 = (s.regs.errcause != 0)

/-- The dump is purely observational: two machines that differ only in `DBG_REMAIN`, `ENERGY` and the last step's outputs
still differ only in those after a step, and publish alike (45_host_interface.md section 3, 60_exceptions.md section 8). -/
def Obligations.DumpNeverAltersDecoding : Prop :=
  ∀ s₁ s₂ t₁ t₂ : State, s₁.inputs = s₂.inputs → s₁.regs.withoutDump = s₂.regs.withoutDump →
    step s₁ = .next t₁ → step s₂ = .next t₂ →
      t₁.inputs = t₂.inputs ∧ t₁.regs.withoutDump = t₂.regs.withoutDump ∧ t₁.out.pubValid = t₂.out.pubValid ∧
        t₁.out.pubCode = t₂.out.pubCode ∧ t₁.out.digitPending = t₂.out.digitPending

/-- The producer is not stalled by the consumer: whatever command but a legal WR CTRL is presented with a step's sample, or
none, the sample's effect and the step's pulses are the same (44_mailbox.md section on R207). -/
def Obligations.ConsumerNeverDisturbsTheSamplePath : Prop :=
  ∀ (s : State) (inp : StepInput) (rest : List StepInput) (b₁ b₂ : Bool) (w₁ w₂ : CmdWord) (t₁ t₂ : State),
    StepInput.isLifecycle { inp with cmdValid := b₁, cmd := w₁ } = false →
      StepInput.isLifecycle { inp with cmdValid := b₂, cmd := w₂ } = false →
        step { s with inputs := { inp with cmdValid := b₁, cmd := w₁ } :: rest } = .next t₁ →
          step { s with inputs := { inp with cmdValid := b₂, cmd := w₂ } :: rest } = .next t₂ →
            t₁.regs.enabled = t₂.regs.enabled ∧ t₁.regs.idx = t₂.regs.idx ∧ t₁.regs.q1 = t₂.regs.q1 ∧
              t₁.regs.q2 = t₂.regs.q2 ∧ t₁.regs.dec = t₂.regs.dec ∧ t₁.regs.energy = t₂.regs.energy ∧
              t₁.out.pubValid = t₂.out.pubValid ∧ t₁.out.pubCode = t₂.out.pubCode ∧
              t₁.out.energyValid = t₂.out.energyValid
end

