-- ==== Sys2Proof/Laws/Decode.lean ====
section
/-! SUPPORT. The fields of an assembled command word, and the register map read both ways. -/

namespace Sys2Proof

@[simp] theorem regAt_addr (r : RegName) : regAt r.addr = some r := by
  cases r with
  | energy t => cases t <;> rfl
  | _ => rfl

/-- An assigned address is its register's. -/
theorem addr_of_regAt {a : RegAddr} {r : RegName} (h : regAt a = some r) : r.addr = a := by
  revert r
  revert a
  decide +revert

@[simp] theorem cmdData_assemble (b : Bool) (r : RegName) (d : Byte) : cmdData (assembleCmd b r d) = d := by
  apply BitVec.eq_of_getLsbD_eq
  intro i hi
  simp only [cmdData, assembleCmd, BitVec.getLsbD_extractLsb', BitVec.getLsbD_append]
  simp [hi]

@[simp] theorem cmdAddr_assemble (b : Bool) (r : RegName) (d : Byte) : cmdAddr (assembleCmd b r d) = r.addr := by
  apply BitVec.eq_of_getLsbD_eq
  intro i hi
  simp only [cmdAddr, assembleCmd, BitVec.getLsbD_extractLsb', BitVec.getLsbD_append]
  simp [hi]

@[simp] theorem cmdRsv_assemble (b : Bool) (r : RegName) (d : Byte) : cmdRsv (assembleCmd b r d) = 0 := by
  apply BitVec.eq_of_getLsbD_eq
  intro i hi
  have h8 : ¬12 + i < 8 := by omega
  have h4 : ¬12 + i - 8 < 4 := by omega
  have h3 : 12 + i - 8 - 4 < 3 := by omega
  simp only [cmdRsv, assembleCmd, BitVec.getLsbD_extractLsb', BitVec.getLsbD_append]
  simp [h8, h4, h3]

@[simp] theorem cmdW_assemble (b : Bool) (r : RegName) (d : Byte) : cmdW (assembleCmd b r d) = b := by
  simp only [cmdW, assembleCmd, BitVec.getLsbD_append]
  simp

/-- Every operation has the mnemonic of its read or write: the energy reads. -/
theorem rdEnergy_mnemonic (t : Tone) :
    (Instr.rdEnergy t).mnemonic ∈
      ["RD_ENERGY0", "RD_ENERGY1", "RD_ENERGY2", "RD_ENERGY3", "RD_ENERGY4", "RD_ENERGY5", "RD_ENERGY6"] := by
  cases t <;> decide

end Sys2Proof
end

