-- ==== Sys2Proof/Laws/State.lean ====
section
/-! SUPPORT. One lemma for each field under each named update of the registers and of the state, true by rfl, so that no proof
unfolds a record update; each update's lemmas together are its frame. -/

namespace Sys2Proof.Machine

@[simp] theorem Regs.setErrcause_enabled (r : Regs) (c : BitVec 2) : (r.setErrcause c).enabled = r.enabled := rfl
@[simp] theorem Regs.setErrcause_idx (r : Regs) (c : BitVec 2) : (r.setErrcause c).idx = r.idx := rfl
@[simp] theorem Regs.setErrcause_q1 (r : Regs) (c : BitVec 2) : (r.setErrcause c).q1 = r.q1 := rfl
@[simp] theorem Regs.setErrcause_q2 (r : Regs) (c : BitVec 2) : (r.setErrcause c).q2 = r.q2 := rfl
@[simp] theorem Regs.setErrcause_dec (r : Regs) (c : BitVec 2) : (r.setErrcause c).dec = r.dec := rfl
@[simp] theorem Regs.setErrcause_mailbox (r : Regs) (c : BitVec 2) : (r.setErrcause c).mailbox = r.mailbox := rfl
@[simp] theorem Regs.setErrcause_dbgRemain (r : Regs) (c : BitVec 2) : (r.setErrcause c).dbgRemain = r.dbgRemain := rfl
@[simp] theorem Regs.setErrcause_energy (r : Regs) (c : BitVec 2) : (r.setErrcause c).energy = r.energy := rfl
@[simp] theorem Regs.setErrcause_errcause (r : Regs) (c : BitVec 2) : (r.setErrcause c).errcause = c := rfl

@[simp] theorem Regs.setDbgRemain_enabled (r : Regs) (d : Byte) : (r.setDbgRemain d).enabled = r.enabled := rfl
@[simp] theorem Regs.setDbgRemain_idx (r : Regs) (d : Byte) : (r.setDbgRemain d).idx = r.idx := rfl
@[simp] theorem Regs.setDbgRemain_q1 (r : Regs) (d : Byte) : (r.setDbgRemain d).q1 = r.q1 := rfl
@[simp] theorem Regs.setDbgRemain_q2 (r : Regs) (d : Byte) : (r.setDbgRemain d).q2 = r.q2 := rfl
@[simp] theorem Regs.setDbgRemain_dec (r : Regs) (d : Byte) : (r.setDbgRemain d).dec = r.dec := rfl
@[simp] theorem Regs.setDbgRemain_mailbox (r : Regs) (d : Byte) : (r.setDbgRemain d).mailbox = r.mailbox := rfl
@[simp] theorem Regs.setDbgRemain_dbgRemain (r : Regs) (d : Byte) : (r.setDbgRemain d).dbgRemain = d := rfl
@[simp] theorem Regs.setDbgRemain_energy (r : Regs) (d : Byte) : (r.setDbgRemain d).energy = r.energy := rfl
@[simp] theorem Regs.setDbgRemain_errcause (r : Regs) (d : Byte) : (r.setDbgRemain d).errcause = r.errcause := rfl

@[simp] theorem Regs.publish_enabled (r : Regs) (c : Code) : (r.publish c).enabled = r.enabled := rfl
@[simp] theorem Regs.publish_idx (r : Regs) (c : Code) : (r.publish c).idx = r.idx := rfl
@[simp] theorem Regs.publish_q1 (r : Regs) (c : Code) : (r.publish c).q1 = r.q1 := rfl
@[simp] theorem Regs.publish_q2 (r : Regs) (c : Code) : (r.publish c).q2 = r.q2 := rfl
@[simp] theorem Regs.publish_dec (r : Regs) (c : Code) : (r.publish c).dec = r.dec := rfl
@[simp] theorem Regs.publish_mailbox (r : Regs) (c : Code) : (r.publish c).mailbox = c := rfl
@[simp] theorem Regs.publish_dbgRemain (r : Regs) (c : Code) : (r.publish c).dbgRemain = r.dbgRemain := rfl
@[simp] theorem Regs.publish_energy (r : Regs) (c : Code) : (r.publish c).energy = r.energy := rfl
@[simp] theorem Regs.publish_errcause (r : Regs) (c : Code) : (r.publish c).errcause = r.errcause := rfl

@[simp] theorem Regs.take_enabled (r : Regs) : (r.take).enabled = r.enabled := rfl
@[simp] theorem Regs.take_idx (r : Regs) : (r.take).idx = r.idx := rfl
@[simp] theorem Regs.take_q1 (r : Regs) : (r.take).q1 = r.q1 := rfl
@[simp] theorem Regs.take_q2 (r : Regs) : (r.take).q2 = r.q2 := rfl
@[simp] theorem Regs.take_dec (r : Regs) : (r.take).dec = r.dec := rfl
@[simp] theorem Regs.take_mailbox (r : Regs) : (r.take).mailbox = 0 := rfl
@[simp] theorem Regs.take_dbgRemain (r : Regs) : (r.take).dbgRemain = r.dbgRemain := rfl
@[simp] theorem Regs.take_energy (r : Regs) : (r.take).energy = r.energy := rfl
@[simp] theorem Regs.take_errcause (r : Regs) : (r.take).errcause = r.errcause := rfl

@[simp] theorem Regs.mailboxReset_enabled (r : Regs) : (r.mailboxReset).enabled = r.enabled := rfl
@[simp] theorem Regs.mailboxReset_idx (r : Regs) : (r.mailboxReset).idx = r.idx := rfl
@[simp] theorem Regs.mailboxReset_q1 (r : Regs) : (r.mailboxReset).q1 = r.q1 := rfl
@[simp] theorem Regs.mailboxReset_q2 (r : Regs) : (r.mailboxReset).q2 = r.q2 := rfl
@[simp] theorem Regs.mailboxReset_dec (r : Regs) : (r.mailboxReset).dec = r.dec := rfl
@[simp] theorem Regs.mailboxReset_mailbox (r : Regs) : (r.mailboxReset).mailbox = 0 := rfl
@[simp] theorem Regs.mailboxReset_dbgRemain (r : Regs) : (r.mailboxReset).dbgRemain = r.dbgRemain := rfl
@[simp] theorem Regs.mailboxReset_energy (r : Regs) : (r.mailboxReset).energy = r.energy := rfl
@[simp] theorem Regs.mailboxReset_errcause (r : Regs) : (r.mailboxReset).errcause = r.errcause := rfl

@[simp] theorem Regs.restart_enabled (r : Regs) (en : Bool) : (r.restart en).enabled = en := rfl
@[simp] theorem Regs.restart_idx (r : Regs) (en : Bool) : (r.restart en).idx = 0 := rfl
@[simp] theorem Regs.restart_q1 (r : Regs) (en : Bool) : (r.restart en).q1 = Bank.const 0 := rfl
@[simp] theorem Regs.restart_q2 (r : Regs) (en : Bool) : (r.restart en).q2 = Bank.const 0 := rfl
@[simp] theorem Regs.restart_dec (r : Regs) (en : Bool) : (r.restart en).dec = DecoderState.cleared := rfl
@[simp] theorem Regs.restart_mailbox (r : Regs) (en : Bool) : (r.restart en).mailbox = 0 := rfl
@[simp] theorem Regs.restart_dbgRemain (r : Regs) (en : Bool) : (r.restart en).dbgRemain = r.dbgRemain := rfl
@[simp] theorem Regs.restart_energy (r : Regs) (en : Bool) : (r.restart en).energy = r.energy := rfl
@[simp] theorem Regs.restart_errcause (r : Regs) (en : Bool) : (r.restart en).errcause = r.errcause := rfl

@[simp] theorem Regs.setDecoder_enabled (r : Regs) (d : DecoderState) : (r.setDecoder d).enabled = r.enabled := rfl
@[simp] theorem Regs.setDecoder_idx (r : Regs) (d : DecoderState) : (r.setDecoder d).idx = r.idx := rfl
@[simp] theorem Regs.setDecoder_q1 (r : Regs) (d : DecoderState) : (r.setDecoder d).q1 = r.q1 := rfl
@[simp] theorem Regs.setDecoder_q2 (r : Regs) (d : DecoderState) : (r.setDecoder d).q2 = r.q2 := rfl
@[simp] theorem Regs.setDecoder_dec (r : Regs) (d : DecoderState) : (r.setDecoder d).dec = d := rfl
@[simp] theorem Regs.setDecoder_mailbox (r : Regs) (d : DecoderState) : (r.setDecoder d).mailbox = r.mailbox := rfl
@[simp] theorem Regs.setDecoder_dbgRemain (r : Regs) (d : DecoderState) : (r.setDecoder d).dbgRemain = r.dbgRemain := rfl
@[simp] theorem Regs.setDecoder_energy (r : Regs) (d : DecoderState) : (r.setDecoder d).energy = r.energy := rfl
@[simp] theorem Regs.setDecoder_errcause (r : Regs) (d : DecoderState) : (r.setDecoder d).errcause = r.errcause := rfl

@[simp] theorem Regs.setFilters_enabled (r : Regs) (a b : Bank Int) (n : BitVec 7) : (r.setFilters a b n).enabled = r.enabled := rfl
@[simp] theorem Regs.setFilters_idx (r : Regs) (a b : Bank Int) (n : BitVec 7) : (r.setFilters a b n).idx = n := rfl
@[simp] theorem Regs.setFilters_q1 (r : Regs) (a b : Bank Int) (n : BitVec 7) : (r.setFilters a b n).q1 = a := rfl
@[simp] theorem Regs.setFilters_q2 (r : Regs) (a b : Bank Int) (n : BitVec 7) : (r.setFilters a b n).q2 = b := rfl
@[simp] theorem Regs.setFilters_dec (r : Regs) (a b : Bank Int) (n : BitVec 7) : (r.setFilters a b n).dec = r.dec := rfl
@[simp] theorem Regs.setFilters_mailbox (r : Regs) (a b : Bank Int) (n : BitVec 7) : (r.setFilters a b n).mailbox = r.mailbox := rfl
@[simp] theorem Regs.setFilters_dbgRemain (r : Regs) (a b : Bank Int) (n : BitVec 7) : (r.setFilters a b n).dbgRemain = r.dbgRemain := rfl
@[simp] theorem Regs.setFilters_energy (r : Regs) (a b : Bank Int) (n : BitVec 7) : (r.setFilters a b n).energy = r.energy := rfl
@[simp] theorem Regs.setFilters_errcause (r : Regs) (a b : Bank Int) (n : BitVec 7) : (r.setFilters a b n).errcause = r.errcause := rfl

@[simp] theorem State.setRegs_regs (s : State) (r : Regs) : (s.setRegs r).regs = r := rfl
@[simp] theorem State.setRegs_out (s : State) (r : Regs) : (s.setRegs r).out = s.out := rfl
@[simp] theorem State.setRegs_inputs (s : State) (r : Regs) : (s.setRegs r).inputs = s.inputs := rfl

@[simp] theorem State.setRdata_regs (s : State) (v : Byte) : (s.setRdata v).regs = s.regs := rfl
@[simp] theorem State.setRdata_rdata (s : State) (v : Byte) : (s.setRdata v).out.rdata = v := rfl
@[simp] theorem State.setRdata_digitPending (s : State) (v : Byte) : (s.setRdata v).out.digitPending = s.out.digitPending := rfl
@[simp] theorem State.setRdata_pubValid (s : State) (v : Byte) : (s.setRdata v).out.pubValid = s.out.pubValid := rfl
@[simp] theorem State.setRdata_pubCode (s : State) (v : Byte) : (s.setRdata v).out.pubCode = s.out.pubCode := rfl
@[simp] theorem State.setRdata_energyValid (s : State) (v : Byte) : (s.setRdata v).out.energyValid = s.out.energyValid := rfl
@[simp] theorem State.setRdata_inputs (s : State) (v : Byte) : (s.setRdata v).inputs = s.inputs := rfl

@[simp] theorem State.setPulses_regs (s : State) (c : Code) (l : Bool) : (s.setPulses c l).regs = s.regs := rfl
@[simp] theorem State.setPulses_rdata (s : State) (c : Code) (l : Bool) : (s.setPulses c l).out.rdata = s.out.rdata := rfl
@[simp] theorem State.setPulses_digitPending (s : State) (c : Code) (l : Bool) : (s.setPulses c l).out.digitPending = s.out.digitPending := rfl
@[simp] theorem State.setPulses_pubValid (s : State) (c : Code) (l : Bool) : (s.setPulses c l).out.pubValid = (c != 0) := rfl
@[simp] theorem State.setPulses_pubCode (s : State) (c : Code) (l : Bool) : (s.setPulses c l).out.pubCode = c := rfl
@[simp] theorem State.setPulses_energyValid (s : State) (c : Code) (l : Bool) : (s.setPulses c l).out.energyValid = l := rfl
@[simp] theorem State.setPulses_inputs (s : State) (c : Code) (l : Bool) : (s.setPulses c l).inputs = s.inputs := rfl

@[simp] theorem State.advance_regs (s : State) : (s.advance).regs = s.regs := rfl
@[simp] theorem State.advance_out (s : State) : (s.advance).out = s.out := rfl
@[simp] theorem State.advance_inputs (s : State) : (s.advance).inputs = s.inputs.tail := rfl

@[simp] theorem beginStep_regs (s : State) : (beginStep s).regs = s.regs := rfl
@[simp] theorem beginStep_out (s : State) : (beginStep s).out = startOutputs s.regs := rfl
@[simp] theorem beginStep_inputs (s : State) : (beginStep s).inputs = s.inputs := rfl

@[simp] theorem hardwareReset_regs (s : State) : (hardwareReset s).regs = Regs.reset := rfl
@[simp] theorem hardwareReset_out (s : State) : (hardwareReset s).out = s.out := rfl
@[simp] theorem hardwareReset_inputs (s : State) : (hardwareReset s).inputs = s.inputs := rfl

@[simp] theorem startOutputs_rdata (r : Regs) : (startOutputs r).rdata = 0 := rfl
@[simp] theorem startOutputs_digitPending (r : Regs) : (startOutputs r).digitPending = (r.mailbox != 0) := rfl
@[simp] theorem startOutputs_pubValid (r : Regs) : (startOutputs r).pubValid = false := rfl
@[simp] theorem startOutputs_pubCode (r : Regs) : (startOutputs r).pubCode = 0 := rfl
@[simp] theorem startOutputs_energyValid (r : Regs) : (startOutputs r).energyValid = false := rfl

@[simp] theorem Regs.init_eq (r : Regs) : r.init = r.restart true := rfl

@[simp] theorem Regs.disable_eq (r : Regs) : r.disable = r.restart false := rfl

theorem State.ext_fields {s t : State} (hr : s.regs = t.regs) (ho : s.out = t.out) (hi : s.inputs = t.inputs) : s = t := by
  cases s
  cases t
  simp_all

end Sys2Proof.Machine
end

