-- ==== Sys2Proof/Laws/Word.lean ====
section
/-! SUPPORT. The laws of a bank: reading back what it was made from, and equality element by element. -/

namespace Sys2Proof

@[simp] theorem Bank.get_ofFn {α : Type} (f : Tone → α) (t : Tone) : (Bank.ofFn f).get t = f t := by
  cases t <;> rfl

@[simp] theorem Bank.get_const {α : Type} (a : α) (t : Tone) : (Bank.const a).get t = a := by
  cases t <;> rfl

theorem Bank.ext_get {α : Type} {a b : Bank α} (h : ∀ t, a.get t = b.get t) : a = b := by
  cases a
  cases b
  have := h .r1; have := h .r2; have := h .r3; have := h .r4; have := h .c1; have := h .c2; have := h .c3
  simp_all [Bank.get]

@[simp] theorem Bank.ofFn_get {α : Type} (b : Bank α) : Bank.ofFn b.get = b :=
  Bank.ext_get fun t => by simp

end Sys2Proof
end

