-- ==== Sys2Proof/Laws/Ops.lean ====
section
/-! SUPPORT. What each shared operation on the registers can do, said once. -/

namespace Sys2Proof.Machine

/-- The error latch changes `ERRCAUSE` only (60_exceptions.md R262, R263). -/
theorem Regs.latchError_eq (r : Regs) (c : Cause) :
    r.latchError c = { r with errcause := if r.errcause = 0 then c.code else r.errcause } := by
  unfold Regs.latchError
  split <;> rfl

/-- An illegal command changes the latch and `rdata`, nothing else. -/
theorem raiseIllegal_eq (c : Cause) (s : State) :
    raiseIllegal c s =
      { s with
        regs := { s.regs with errcause := if s.regs.errcause = 0 then c.code else s.regs.errcause }
        out := { s.out with rdata := 0 } } := by
  simp [raiseIllegal, Regs.latchError_eq, State.setRegs, State.setRdata]

/-- A cause's code is never 0, so a raised error is seen. -/
theorem Cause.code_ne_zero (c : Cause) : c.code ≠ 0 := by
  cases c <;> decide

/-- DebugLatch changes `ENERGY` and `DBG_REMAIN` only, and only while a dump is in progress (45_host_interface.md R226). -/
theorem Regs.debugLatch_eq (r : Regs) (e : Bank Byte) :
    r.debugLatch e =
      { r with
        energy := if r.dbgRemain = 0 then r.energy else e
        dbgRemain := if r.dbgRemain = 0 then r.dbgRemain else r.dbgRemain - 1 } := by
  unfold Regs.debugLatch
  split <;> rfl

/-- A block that publishes overwrites the slot; a block that does not leaves it (44_mailbox.md R201). -/
theorem Regs.publishIf_eq (r : Regs) (c : Code) :
    r.publishIf c = { r with mailbox := if c = 0 then r.mailbox else c } := by
  unfold Regs.publishIf
  split <;> rfl

/-- A read without a side effect writes `rdata` only. -/
theorem readReg_eq (n : RegName) (s : State) :
    readReg n s = { s with out := { s.out with rdata := regRead n s.regs } } := rfl

/-- INIT and DISABLE leave a quiet decoder behind. -/
theorem Regs.restart_eq (r : Regs) (en : Bool) :
    r.restart en =
      { Regs.reset with enabled := en, dbgRemain := r.dbgRemain, energy := r.energy, errcause := r.errcause } := rfl

end Sys2Proof.Machine
end

