-- ==== Sys2Proof/Laws/PerInstr.lean ====
section
/-! SUPPORT. A statement for every operation: the encoder puts it on the row of R82's operation map that has its mnemonic,
and SAMPLE on the sample port. -/

namespace Sys2Proof.Laws.OperationMap

/-- The port word of `i` hits the row of R82 named after `i`, or is the sample port's. -/
def Statement (i : Instr) : Prop :=
  match encode i with
  | .cmd w => ∃ row ∈ opMap, row.mnemonic = i.mnemonic ∧ row.hits w = true
  | .sample u => i = .sample u

/-- A written command keeps its row whatever its DATA: the mask leaves DATA out. -/
theorem write_hits (r : RegName) (d : Byte) : assembleCmd true r d &&& opMask = assembleCmd true r 0 &&& opMask := by
  apply BitVec.eq_of_getLsbD_eq
  intro i hi
  simp only [assembleCmd, BitVec.getLsbD_and, BitVec.getLsbD_append]
  by_cases h : i < 8
  · have hm : opMask.getLsbD i = false := by
      interval_cases i <;> rfl
    simp [hm]
  · simp [h]

theorem rdCtrl : Statement .rdCtrl := ⟨opMap[0], by decide⟩
theorem wrCtrl (d : Byte) : Statement (.wrCtrl d) :=
  ⟨opMap[1], by decide, rfl, by simp only [OpRow.hits, write_hits]; decide⟩
theorem rdStatus : Statement .rdStatus := ⟨opMap[2], by decide⟩
theorem rdDigit : Statement .rdDigit := ⟨opMap[3], by decide⟩
theorem rdErrcause : Statement .rdErrcause := ⟨opMap[4], by decide⟩
theorem rdDbgcnt : Statement .rdDbgcnt := ⟨opMap[5], by decide⟩
theorem wrDbgcnt (d : Byte) : Statement (.wrDbgcnt d) :=
  ⟨opMap[6], by decide, rfl, by simp only [OpRow.hits, write_hits]; decide⟩
theorem rdEnergy0 : Statement .rdEnergy0 := ⟨opMap[7], by decide⟩
theorem rdEnergy1 : Statement .rdEnergy1 := ⟨opMap[8], by decide⟩
theorem rdEnergy2 : Statement .rdEnergy2 := ⟨opMap[9], by decide⟩
theorem rdEnergy3 : Statement .rdEnergy3 := ⟨opMap[10], by decide⟩
theorem rdEnergy4 : Statement .rdEnergy4 := ⟨opMap[11], by decide⟩
theorem rdEnergy5 : Statement .rdEnergy5 := ⟨opMap[12], by decide⟩
theorem rdEnergy6 : Statement .rdEnergy6 := ⟨opMap[13], by decide⟩
theorem sample (u : Byte) : Statement (.sample u) := rfl

end Sys2Proof.Laws.OperationMap
end

