-- ==== Sys2Proof/Laws/Units.lean ====
section
/-! SUPPORT. What the arithmetic primitives and the units of the sample path can do, said once for each. -/

namespace Sys2Proof.Machine

/-- `asr` rounds toward minus infinity: the quotient is the one whose remainder is in `0..2^k - 1`. -/
theorem asr_floor (v : Int) (k : Nat) : 2 ^ k * asr v k ≤ v ∧ v < 2 ^ k * asr v k + 2 ^ k := by
  have hk : (0 : Int) < 2 ^ k := by positivity
  have h1 := Int.emod_nonneg v hk.ne'
  have h2 := Int.emod_lt_of_pos v hk
  have h3 := Int.mul_ediv_add_emod v (2 ^ k)
  unfold asr
  constructor <;> linarith

/-- `clamp` stays between its bounds. -/
theorem clamp_mem {v lo hi : Int} (h : lo ≤ hi) : lo ≤ clamp v lo hi ∧ clamp v lo hi ≤ hi := by
  unfold clamp
  omega

/-- A centred sample lies in -SAMPLE_LIM..SAMPLE_LIM. -/
theorem center_mem (p : Params) (u : Byte) : -(p.sampleLim : Int) ≤ center p u ∧ center p u ≤ p.sampleLim :=
  clamp_mem (by omega)

/-- The value of a saturating increment; 8 bits hold it while COUNT_MAX does. -/
theorem satInc_toNat {p : Params} (h : p.countMax ≤ 255) (v : Byte) :
    (satInc p v).toNat = min (v.toNat + 1) p.countMax := by
  simp only [satInc, BitVec.toNat_ofNat]
  omega

/-- The energy of a filter as a natural number; 8 bits hold it while ENERGY_MAX does. -/
theorem energyOut_toNat {p : Params} (h : p.energyMax ≤ 255) (q1 q2 : Int) (c : Nat) :
    ((energyOut p q1 q2 c).toNat : Int) =
      clamp (asr (energyRaw p q1 q2 c) (p.stepShift + p.energyShift)) 0 p.energyMax := by
  have hm := clamp_mem (v := asr (energyRaw p q1 q2 c) (p.stepShift + p.energyShift))
    (lo := 0) (hi := (p.energyMax : Int)) (by omega)
  simp only [energyOut, BitVec.toNat_ofInt]
  omega

/-- One more sample is one more filter step. -/
theorem filterRun_concat (p : Params) (t : Tone) (xs : List Int) (x : Int) :
    filterRun p t (xs ++ [x]) =
      goertzelStep p (filterRun p t xs).1 (filterRun p t xs).2 x (p.coef.get t) := by
  simp [filterRun]

@[simp] theorem filterRun_nil (p : Params) (t : Tone) : filterRun p t [] = (0, 0) := rfl

@[simp] theorem nextQ1_get (p : Params) (r : Regs) (x : Int) (t : Tone) :
    (nextQ1 p r x).get t = (goertzelStep p (r.q1.get t) (r.q2.get t) x (p.coef.get t)).1 := by
  simp [nextQ1]

@[simp] theorem nextQ2_get (p : Params) (r : Regs) (x : Int) (t : Tone) :
    (nextQ2 p r x).get t = r.q1.get t := by
  simp [nextQ2, goertzelStep]

@[simp] theorem bankEnergies_get (p : Params) (q1 q2 : Bank Int) (t : Tone) :
    (bankEnergies p q1 q2).get t = energyOut p (q1.get t) (q2.get t) (p.coef.get t) := by
  simp [bankEnergies]

@[simp] theorem estimate_get (p : Params) (xs : List Int) (t : Tone) :
    (estimate p xs).get t = energyOut p (filterRun p t xs).1 (filterRun p t xs).2 (p.coef.get t) := by
  simp [estimate]

/-- The larger of the two values, and one of the two pairs. -/
theorem max2_cases (a b : Nat × Nat) : (max2 a b = a ∧ b.1 ≤ a.1) ∨ (max2 a b = b ∧ a.1 < b.1) := by
  unfold max2
  split
  · exact .inl ⟨rfl, by omega⟩
  · exact .inr ⟨rfl, by omega⟩

/-- Cross-rejection as a statement about the losers. -/
theorem crossRejects_iff (p : Params) (w : Nat × Nat) (ls : List (Nat × Nat)) :
    crossRejects p w ls = true ↔ ∃ l ∈ ls, l.2 ≠ w.2 ∧ w.1 / p.crossDiv < l.1 := by
  simp [crossRejects]

/-- A block that classifies to a code has passed every test of R161, and the code is the one its winners combine to. -/
theorem classify_cases (p : Params) (e : Bank Byte) :
    classify p e = 0 ∨
      (p.minColValue ≤ (columnWinner e).1 ∧ crossRejects p (columnWinner e) (columnLevels e) = false ∧
        p.minRowValue ≤ (rowWinner e).1 ∧ crossRejects p (rowWinner e) (rowLevels e) = false ∧
        twistRejects p (columnWinner e).1 (rowWinner e).1 = false ∧
        classify p e = BitVec.ofNat 4 ((columnWinner e).2 + rowOffset (rowWinner e).2)) := by
  simp only [classify]
  split
  · exact .inl rfl
  split
  · exact .inl rfl
  split
  · exact .inl rfl
  split
  · exact .inl rfl
  split
  · exact .inl rfl
  · exact .inr ⟨by omega, by simpa using ‹¬crossRejects p (columnWinner e) (columnLevels e) = true›, by omega,
      by simpa using ‹¬crossRejects p (rowWinner e) (rowLevels e) = true›,
      by simpa using ‹¬twistRejects p (columnWinner e).1 (rowWinner e).1 = true›, rfl⟩

/-- All that one block can do to DecoderState: continue the run, start a candidate, end the candidate (publishing it or
not), or count silence (R181, R182, R184-R186). -/
theorem debounce_cases (p : Params) (d : DecoderState) (n : Code) :
    (n ≠ 0 ∧ n = d.activeDigit ∧ d.silenceCount.toNat ≤ p.maxToneDropout ∧
        debounce p d n = (⟨d.activeDigit, satInc p d.activeCount, 0⟩, 0)) ∨
      (n ≠ 0 ∧ ¬(n = d.activeDigit ∧ d.silenceCount.toNat ≤ p.maxToneDropout) ∧ debounce p d n = (⟨n, 1, 0⟩, 0)) ∨
      (n = 0 ∧ d.activeDigit ≠ 0 ∧ p.minSilence ≤ (satInc p d.silenceCount).toNat ∧
        debounce p d n =
          (⟨0, 0, satInc p d.silenceCount⟩, if p.minTone ≤ d.activeCount.toNat then d.activeDigit else 0)) ∨
      (n = 0 ∧ (d.activeDigit = 0 ∨ (satInc p d.silenceCount).toNat < p.minSilence) ∧
        debounce p d n = (⟨d.activeDigit, d.activeCount, satInc p d.silenceCount⟩, 0)) := by
  by_cases hn : n = 0
  · by_cases he : silenceEnds p d = true
    · have hs := he
      simp only [silenceEnds, Bool.and_eq_true, bne_iff_ne, decide_eq_true_eq] at hs
      refine .inr (.inr (.inl ⟨hn, hs.1, hs.2, ?_⟩))
      simp [debounce, debounceSilence, hn, he]
    · have hs := he
      simp only [silenceEnds, Bool.and_eq_true, bne_iff_ne, decide_eq_true_eq, not_and, not_le] at hs
      refine .inr (.inr (.inr ⟨hn, by tauto, ?_⟩))
      simp [debounce, debounceSilence, hn, he]
  · by_cases hc : n = d.activeDigit ∧ d.silenceCount.toNat ≤ p.maxToneDropout
    · refine .inl ⟨hn, hc.1, hc.2, ?_⟩
      simp only [debounce, debounceTone, if_neg hn, if_pos hc]
    · refine .inr (.inl ⟨hn, hc, ?_⟩)
      simp only [debounce, debounceTone, if_neg hn, if_neg hc]

@[simp] theorem debounceRun_nil (p : Params) (d : DecoderState) : debounceRun p d [] = (d, []) := rfl

@[simp] theorem debounceRun_cons (p : Params) (d : DecoderState) (n : Code) (ns : List Code) :
    debounceRun p d (n :: ns) =
      ((debounceRun p (debounce p d n).1 ns).1, (debounce p d n).2 :: (debounceRun p (debounce p d n).1 ns).2) := rfl

@[simp] theorem debounceRun_length (p : Params) (d : DecoderState) (ns : List Code) :
    (debounceRun p d ns).2.length = ns.length := by
  induction ns generalizing d with
  | nil => rfl
  | cons n ns ih => simp [ih]

end Sys2Proof.Machine
end

