-- ==== Sys2Proof/Laws/Step.lean ====
section
/-! SUPPORT. What an operation, a sample, the events of a step and a step can do, said once for each. -/

namespace Sys2Proof.Machine

/-- The state an operation leaves; `exec_eq` says that `exec` always answers it. -/
def execState (i : Instr) (s : State) : State :=
  match i with
  | .rdCtrl => readReg .ctrl s
  | .wrCtrl d => (s.setRegs (s.regs.restart (lifecycleBit d))).setRdata 0
  | .rdStatus => readReg .status s
  | .rdDigit => (readReg .digit s).setRegs s.regs.take
  | .rdErrcause => readReg .errcause s
  | .rdDbgcnt => readReg .dbgcnt s
  | .wrDbgcnt d => (s.setRegs (s.regs.setDbgRemain d)).setRdata 0
  | .rdEnergy0 => readReg (.energy .r1) s
  | .rdEnergy1 => readReg (.energy .r2) s
  | .rdEnergy2 => readReg (.energy .r3) s
  | .rdEnergy3 => readReg (.energy .r4) s
  | .rdEnergy4 => readReg (.energy .c1) s
  | .rdEnergy5 => readReg (.energy .c2) s
  | .rdEnergy6 => readReg (.energy .c3) s
  | .sample u => acceptSample Config.params u s

theorem exec_eq (i : Instr) (s : State) : exec i s = .next (execState i s) := by
  cases i with
  | wrCtrl d => simp only [exec, execWrCtrl, execState]; split <;> simp_all
  | _ => rfl

/-- A sample is ignored, is one filter step, or completes the block (40_pipeline.md R111). -/
theorem acceptSample_cases (p : Params) (u : Byte) (s : State) :
    (s.regs.enabled = false ∧ acceptSample p u s = s) ∨
      (s.regs.enabled = true ∧ s.regs.idx.toNat = p.nBlock - 1 ∧
        acceptSample p u s =
          blockComplete p (nextQ1 p s.regs (center p u)) (nextQ2 p s.regs (center p u)) s) ∨
      (s.regs.enabled = true ∧ s.regs.idx.toNat ≠ p.nBlock - 1 ∧
        acceptSample p u s =
          s.setRegs (s.regs.setFilters (nextQ1 p s.regs (center p u)) (nextQ2 p s.regs (center p u)) (s.regs.idx + 1))) := by
  simp only [acceptSample]
  cases he : s.regs.enabled
  · exact .inl ⟨rfl, rfl⟩
  · by_cases hl : s.regs.idx.toNat = p.nBlock - 1
    · exact .inr (.inl ⟨rfl, hl, by simp [lastOfBlock, hl]⟩)
    · exact .inr (.inr ⟨rfl, hl, by simp [lastOfBlock, hl]⟩)

/-- Block completion, field by field (40_pipeline.md R112). -/
theorem blockComplete_eq (p : Params) (a b : Bank Int) (s : State) :
    blockComplete p a b s =
      { s with
        regs :=
          { s.regs with
            idx := 0
            q1 := Bank.const 0
            q2 := Bank.const 0
            dec := (blockVerdict p s.regs (bankEnergies p a b)).1
            mailbox :=
              if (blockVerdict p s.regs (bankEnergies p a b)).2 = 0 then s.regs.mailbox
              else (blockVerdict p s.regs (bankEnergies p a b)).2
            energy := if s.regs.dbgRemain = 0 then s.regs.energy else bankEnergies p a b
            dbgRemain := if s.regs.dbgRemain = 0 then s.regs.dbgRemain else s.regs.dbgRemain - 1 }
        out :=
          { s.out with
            pubValid := (blockVerdict p s.regs (bankEnergies p a b)).2 != 0
            pubCode := (blockVerdict p s.regs (bankEnergies p a b)).2
            energyValid := s.regs.dbgRemain != 0 } } := by
  simp [blockComplete, State.setRegs, State.setPulses, Regs.setFilters, Regs.debugLatch_eq, Regs.publishIf_eq,
    Regs.setDecoder, debugLatches]

/-- What one event does to the state. -/
def Event.apply (s : State) : Event → State
  | .op i => execState i s
  | .illegal c => raiseIllegal c s

/-- The events of a step always run to the end, one after the other. -/
theorem runEvents_eq (es : List Event) (s : State) : runEvents es s = .next (es.foldl Event.apply s) := by
  induction es generalizing s with
  | nil => rfl
  | cons e es ih =>
    cases e with
    | op i => simp only [runEvents, exec_eq, List.foldl_cons, Event.apply, ih]
    | illegal c => simp only [runEvents, List.foldl_cons, Event.apply, ih]

/-- A step is a reset, or its events in order on the state whose step has begun. -/
theorem portStep_eq (inp : StepInput) (s : State) :
    portStep inp s =
      .next (if inp.rst then hardwareReset (beginStep s) else (stepEvents inp).foldl Event.apply (beginStep s)) := by
  unfold portStep
  split
  · rfl
  · exact runEvents_eq _ _

@[simp] theorem State.ports_nil {s : State} (h : s.inputs = []) : s.ports = {} := by
  simp [State.ports, h]

@[simp] theorem State.ports_cons {s : State} {inp : StepInput} {rest : List StepInput} (h : s.inputs = inp :: rest) :
    s.ports = inp := by
  simp [State.ports, h]

/-- No operation touches the inputs that wait. -/
theorem execState_inputs (i : Instr) (s : State) : (execState i s).inputs = s.inputs := by
  cases i with
  | sample u =>
    rcases acceptSample_cases Config.params u s with ⟨_, h⟩ | ⟨_, _, h⟩ | ⟨_, _, h⟩ <;>
      simp [execState, h, blockComplete_eq]
  | _ => rfl

/-- The events of a step, by what its command decodes to. -/
theorem stepEvents_eq (inp : StepInput) :
    stepEvents inp =
      if inp.cmdValid then commandEvents (decodeCmd inp.cmd) (sampleEvents inp) else sampleEvents inp := rfl

end Sys2Proof.Machine
end

