-- ==== Sys2Proof/Tests/Slice0.lean ====
section
/-! SUPPORT. The model's own tests. Expected values are the spec's: 95_test_vectors.md and the examples inside the rules; each
test names its vector or rule. `witness_<Name>` shows states and operands that meet the hypotheses of `Obligations.<Name>`. -/

namespace Sys2Proof.Tests

open Sys2Proof Sys2Proof.Machine

/-! ### Helpers -/

/-- The state a meaning or a step answers. -/
def after (r : Result) : Option State :=
  match r with
  | .next t => some t
  | .fault _ => none
  | .refused _ => none

/-- Registers with a partial block, a candidate, a pending digit, a dump and an error. -/
def busy : Regs :=
  { enabled := true, idx := 5, q1 := ⟨64, 0, 0, 0, 0, 64, 0⟩, q2 := ⟨64, 0, 0, 0, 0, 0, 7⟩, dec := ⟨5, 3, 3⟩, mailbox := 12,
    dbgRemain := 3, energy := ⟨5, 114, 0, 0, 2, 118, 2⟩, errcause := 2 }

/-- The same, one silent sample away from completing a silent block: the candidate 5 is then published. -/
def lastSilent : Regs := { busy with idx := 99, q1 := Bank.const 0, q2 := Bank.const 0 }

/-- Block B5 after 99 of its samples: `Q1` is the final `q2` of EO-6 to EO-12, `Q2` follows from R132 with x = -15. -/
def lastOfB5 : Regs :=
  { Regs.reset with
    enabled := true, idx := 99, q1 := ⟨-654, 3129, 158, 20, -89, 2258, -261⟩, q2 := ⟨-845, 3283, 173, 18, -318, 1324, 36⟩,
    dec := ⟨5, 2, 2⟩, dbgRemain := 1 }

/-- A state with nothing waiting. -/
def at' (r : Regs) : State := { regs := r, out := Outputs.quiet, inputs := [] }

/-- A state whose next step has the inputs `inp`. -/
def facing (r : Regs) (inp : StepInput) : State := { regs := r, out := Outputs.quiet, inputs := [inp] }

/-- A step with the command `w` and the sample `u`. -/
def both (u : Byte) (w : CmdWord) : StepInput := { sampleValid := true, sampleU8 := u, cmdValid := true, cmd := w }

/-- A step with the command `w` alone. -/
def only (w : CmdWord) : StepInput := { cmdValid := true, cmd := w }

/-! ### Well-formedness: one ill-formed term for each check -/

theorem test_wf_default : Config.params.wf = true := by decide
theorem test_wf_nBlock_zero : Params.wf { nBlock := 0 } = false := by decide
theorem test_wf_nBlock_above_idx : Params.wf { nBlock := 129 } = false := by decide
theorem test_wf_energyMax : Params.wf { energyMax := 256 } = false := by decide
theorem test_wf_countMax : Params.wf { countMax := 256 } = false := by decide
theorem test_wf_crossDiv : Params.wf { crossDiv := 0 } = false := by decide
theorem test_wf_sampleLim : Params.wf { sampleLim := 128 } = false := by decide
theorem test_wf_cmdWidth : Params.wf { cmdWidth := 32 } = false := by decide
theorem test_wf_dataWidth : Params.wf { dataWidth := 16 } = false := by decide
theorem test_wf_addrWidth : Params.wf { addrWidth := 8 } = false := by decide
theorem test_wf_imm8 : (AsmCommand.wr .ctrl 255).wf = true ∧ (AsmCommand.wr .ctrl 256).wf = false := by decide
theorem test_wf_raw : (AsmCommand.raw 0xFFFF).wf = true ∧ (AsmCommand.raw 0x10000).wf = false := by decide
theorem test_wf_u8 : (Line.s 255).wf = true ∧ (Line.s 256).wf = false := by decide
theorem test_wf_both : (Line.sc 256 (.rd .digit)).wf = false ∧ (Line.sc 0 (.wr .dbgcnt 256)).wf = false := by decide

/-! ### Decoding: W | RSV | ADDR | DATA written out (R80, R82) -/

theorem test_decode_rdCtrl : decodeCmd 0b0000000011111111 = .op .rdCtrl := by decide
theorem test_decode_wrCtrl : decodeCmd 0b1000000000000011 = .op (.wrCtrl 3) := by decide
theorem test_decode_rdStatus : decodeCmd 0b0000000100000000 = .op .rdStatus := by decide
theorem test_decode_rdDigit : decodeCmd 0b0000001011111111 = .op .rdDigit := by decide
theorem test_decode_rdErrcause : decodeCmd 0b0000001100000000 = .op .rdErrcause := by decide
theorem test_decode_rdDbgcnt : decodeCmd 0b0000010010101011 = .op .rdDbgcnt := by decide
theorem test_decode_wrDbgcnt : decodeCmd 0b1000010000000111 = .op (.wrDbgcnt 7) := by decide
theorem test_decode_rdEnergy0 : decodeCmd 0b0000100000000000 = .op .rdEnergy0 := by decide
theorem test_decode_rdEnergy1 : decodeCmd 0b0000100100000000 = .op .rdEnergy1 := by decide
theorem test_decode_rdEnergy2 : decodeCmd 0b0000101000000000 = .op .rdEnergy2 := by decide
theorem test_decode_rdEnergy3 : decodeCmd 0b0000101100000000 = .op .rdEnergy3 := by decide
theorem test_decode_rdEnergy4 : decodeCmd 0b0000110000000000 = .op .rdEnergy4 := by decide
theorem test_decode_rdEnergy5 : decodeCmd 0b0000110100000000 = .op .rdEnergy5 := by decide
theorem test_decode_rdEnergy6 : decodeCmd 0b0000111000000000 = .op .rdEnergy6 := by decide
theorem test_decode_sample : decode (.sample 0b11001000) = .op (.sample 200) := by decide

/-- DE-13 to DE-16. -/
theorem test_decode_rsvBits :
    [0x1200, 0x7000, 0x9100, 0xF0FF].map decodeCmd = List.replicate 4 (.illegal .rsvBits) := by decide

/-- DE-17, DE-18. -/
theorem test_decode_badAddr :
    [0x0500, 0x0600, 0x0700, 0x0F00, 0x8500, 0x8F00].map decodeCmd = List.replicate 6 (.illegal .badAddr) := by decide

/-- DE-19, DE-20. -/
theorem test_decode_badDir :
    [0x8100, 0x8200, 0x8300, 0x8800, 0x8900, 0x8A00, 0x8B00, 0x8C00, 0x8D00, 0x8E00].map decodeCmd =
      List.replicate 10 (.illegal .badDir) := by decide

/-- Table words: 16 bits are the command port's, 8 bits the sample port's (log 8). -/
theorem test_decodeTableWord :
    decodeTableWord 16 0x8001 = some (.wrCtrl 1) ∧ decodeTableWord 8 200 = some (.sample 200) ∧
      decodeTableWord 16 0x0600 = none ∧ decodeTableWord 12 0 = none := by decide

/-- R91's words and ports for a line with both. -/
theorem test_line_both : (Line.sc 113 (.wr .dbgcnt 5)).input = both 113 0x8405 := by decide

/-! ### The units -/

/-- CE-1, CE-2, CE-4, CE-7, CE-9. -/
theorem test_center : [0, 1, 127, 200, 255].map (center Config.params) = [-127, -127, -1, 72, 127] := by decide

/-- GS-2, GS-8: the shift floors. -/
theorem test_goertzelStep_floors :
    goertzelStep Config.params (-10) 3 4 109 = (-17, -10) ∧ goertzelStep Config.params (-1) 0 0 63 = (-1, -1) := by decide

/-- EO-3, EO-13: saturation, and a cross term that cancels. -/
theorem test_energyOut :
    energyOut Config.params 2897 0 75 = 255 ∧ energyOut Config.params 3000 3000 109 = 81 := by decide

/-- CL-5 and CL-6: a loser at a third passes, one above does not. -/
theorem test_classify_cross :
    classify Config.params ⟨100, 0, 0, 0, 0, 118, 39⟩ = 2 ∧ classify Config.params ⟨100, 0, 0, 0, 40, 118, 0⟩ = 0 := by decide

/-- CL-3, CL-4, CL-9: the thresholds. -/
theorem test_classify_thresholds :
    classify Config.params ⟨100, 0, 0, 0, 59, 0, 0⟩ = 0 ∧ classify Config.params ⟨60, 0, 0, 0, 60, 0, 0⟩ = 1 ∧
      classify Config.params ⟨59, 0, 0, 0, 0, 100, 0⟩ = 0 := by decide

/-- TB-2, TB-3: the lower index wins a tie. -/
theorem test_classify_ties :
    classify { crossDiv := 1 } ⟨0, 0, 80, 80, 0, 90, 90⟩ = 8 ∧ classify { crossDiv := 1 } ⟨0, 80, 0, 80, 90, 0, 90⟩ = 4 := by
  decide

/-- TW-1 to TW-4: equality passes. -/
theorem test_classify_twist :
    classify { minColValue := 1, minRowValue := 1 } ⟨25, 0, 0, 0, 128, 0, 0⟩ = 1 ∧
      classify { minColValue := 1, minRowValue := 1 } ⟨24, 0, 0, 0, 128, 0, 0⟩ = 0 ∧
      classify { minColValue := 1, minRowValue := 1 } ⟨128, 0, 0, 0, 19, 0, 0⟩ = 1 ∧
      classify { minColValue := 1, minRowValue := 1 } ⟨128, 0, 0, 0, 18, 0, 0⟩ = 0 := by decide

/-- DB-9, DB-10, DB-12, DB-13. -/
theorem test_debounce_edges :
    debounce Config.params ⟨5, 255, 0⟩ 5 = (⟨5, 255, 0⟩, 0) ∧ debounce Config.params ⟨0, 0, 255⟩ 0 = (⟨0, 0, 255⟩, 0) ∧
      debounce Config.params ⟨5, 2, 2⟩ 5 = (⟨5, 3, 0⟩, 0) ∧ debounce Config.params ⟨5, 2, 3⟩ 5 = (⟨5, 1, 0⟩, 0) := by decide

/-- DB-14, DB-15, DB-16. -/
theorem test_debounce_silence :
    debounce Config.params ⟨5, 3, 3⟩ 0 = (⟨0, 0, 4⟩, 5) ∧ debounce Config.params ⟨5, 2, 3⟩ 0 = (⟨0, 0, 4⟩, 0) ∧
      debounce Config.params ⟨12, 4, 0⟩ 1 = (⟨1, 1, 0⟩, 0) := by decide

/-- DB-7: published without three consecutive tone blocks. -/
theorem test_debounce_dropouts :
    debounceRun Config.params ⟨0, 0, 0⟩ [5, 0, 5, 0, 5, 0, 0, 0, 0] = (⟨0, 0, 4⟩, [0, 0, 0, 0, 0, 0, 0, 0, 5]) := by decide

/-- ES-2: a block of 100 samples of 255. -/
theorem test_estimate_constant :
    estimate Config.params (List.replicate 100 127) = ⟨2, 3, 2, 2, 0, 1, 1⟩ := by decide +kernel

/-! ### The operations, one step each -/

/-- R216. -/
theorem test_rdCtrl : (after (exec .rdCtrl (at' busy))).map (·.out.rdata) = some 0x01 := by decide

/-- ST-5 (INIT) and ST-9 (DISABLE). -/
theorem test_wrCtrl :
    (after (exec (.wrCtrl 0x03) (at' busy))).map (·.regs) =
        some { Regs.reset with enabled := true, dbgRemain := 3, energy := ⟨5, 114, 0, 0, 2, 118, 2⟩, errcause := 2 } ∧
      (after (exec (.wrCtrl 0xFE) (at' busy))).map (·.regs.enabled) = some false := by decide

/-- ST-11. -/
theorem test_rdStatus : (after (exec .rdStatus (at' busy))).map (·.out.rdata) = some 0x0F := by decide

/-- R221's example. -/
theorem test_rdDigit :
    (after (exec .rdDigit (at' busy))).map (fun t => (t.out.rdata, t.regs.mailbox)) = some (0x0C, 0) := by decide

/-- R222's example. -/
theorem test_rdErrcause :
    (after (exec .rdErrcause (at' busy))).map (fun t => (t.out.rdata, t.regs.errcause)) = some (0x02, 2) := by decide

/-- R223. -/
theorem test_rdDbgcnt : (after (exec .rdDbgcnt (at' busy))).map (·.out.rdata) = some 0x03 := by decide

/-- R224. -/
theorem test_wrDbgcnt :
    (after (exec (.wrDbgcnt 0xFF) (at' busy))).map (fun t => (t.out.rdata, t.regs.dbgRemain)) = some (0, 0xFF) := by decide

/-- R225: each tone's own register. -/
theorem test_rdEnergy :
    [Instr.rdEnergy0, .rdEnergy1, .rdEnergy2, .rdEnergy3, .rdEnergy4, .rdEnergy5, .rdEnergy6].map
        (fun i => (after (exec i (at' { busy with energy := ⟨1, 2, 3, 4, 5, 6, 7⟩ }))).map (·.out.rdata)) =
      [some 1, some 2, some 3, some 4, some 5, some 6, some 7] := by decide

/-- The third sample of block B5 (95_test_vectors.md section 2.2): IDX, Q1 and Q2. -/
theorem test_sample_inside_block :
    (after (exec (.sample 200)
        (at' { Regs.reset with enabled := true, idx := 2, q1 := Bank.const 57 }))).map
          (fun t => (t.regs.idx, t.regs.q1, t.regs.q2)) =
      some (3, ⟨169, 165, 161, 156, 138, 129, 117⟩, Bank.const 57) := by decide

/-- The last sample of block B5 (ST-7 without the write, R226's example): energies, dump count, pulse, DecoderState. -/
theorem test_sample_completes_block :
    (after (exec (.sample 113) (at' lastOfB5))).map
        (fun t => (t.regs.energy, t.regs.dbgRemain, t.out.energyValid, t.regs.dec)) =
      some (⟨5, 114, 0, 0, 2, 118, 2⟩, 0, true, ⟨5, 3, 0⟩) := by decide

/-! ### The step -/

/-- ST-6: a take in the publishing step returns the older slot and leaves the new digit (R204). -/
theorem test_step_take_and_publish :
    (after (step (facing { lastSilent with mailbox := 0 } (both 128 0x0200)))).map
        (fun t => (t.regs.mailbox, t.out.rdata, t.out.pubCode, t.out.digitPending)) = some (5, 0, 5, false) := by decide

/-- ST-7: the write wins over the decrement, and the block is dumped. -/
theorem test_step_wrDbgcnt_wins :
    (after (step (facing lastOfB5 (both 113 0x8405)))).map (fun t => (t.regs.dbgRemain, t.regs.energy, t.out.energyValid)) =
      some (5, ⟨5, 114, 0, 0, 2, 118, 2⟩, true) := by decide

/-- ST-8: the read sees the pre-step energy. -/
theorem test_step_rdEnergy_is_pre_step :
    (after (step (facing lastOfB5 (both 113 0x0D00)))).map (fun t => (t.out.rdata, t.regs.energy.c2)) =
      some (0, 118) := by decide

/-- ST-5: the sample of a lifecycle step is dropped. -/
theorem test_step_init_drops_sample :
    (after (step (facing busy (both 200 0x8001)))).map (fun t => (t.regs.idx, t.regs.enabled)) = some (0, true) := by decide

/-- ST-1: reset overrides both ports. -/
theorem test_step_reset :
    (after (step (facing busy { both 200 0x8001 with rst := true }))).map (fun t => (t.regs, t.out.rdata)) =
      some (Regs.reset, 0) := by decide

/-- R263: an illegal command keeps the pending digit, the older cause and the sample. -/
theorem test_step_illegal :
    (after (step (facing busy (both 200 0x8200)))).map (fun t => (t.regs.mailbox, t.regs.errcause, t.regs.idx)) =
      some (12, 2, 6) := by decide

/-- A placed word is the first operation after reset. -/
theorem test_withFetchWord :
    (after (step (State.reset.withFetchWord 16 0x8001))).map (·.regs.enabled) = some true ∧
      (after (step (State.reset.withFetchWord 8 200))).map (·.regs) = some Regs.reset := by decide

/-! ### Witnesses: the hypotheses of the statements can be met, each clause at a boundary value -/

theorem witness_DecodeOfEncodeIsTheOperation :
    (Instr.wrCtrl 255).wf = true ∧ (Instr.wrDbgcnt 0).wf = true ∧ (Instr.sample 255).wf = true ∧
      Instr.rdEnergy6.wf = true := by decide

theorem witness_LegalWordIsItsEncodingUpToIgnoredData :
    decodeCmd 0x0EFF = .op .rdEnergy6 ∧ BitVec.getLsbD (0x0EFF : CmdWord) 15 = false ∧
      decodeCmd 0x84FF = .op (.wrDbgcnt 255) ∧ BitVec.getLsbD (0x84FF : CmdWord) 15 = true := by decide

theorem witness_LegalCommandsAreTheOperationMap :
    OpRow.mk "RD_ENERGY6" false 0xE 0x0E00 ∈ opMap ∧ (0x0EFF : CmdWord) &&& 0xFF00 = 0x0E00 ∧
      decodeCmd 0x80FF = .op (.wrCtrl 0xFF) := by decide

/-- Words at the edges of the three classes, and the legal neighbours that no class takes. -/
theorem witness_IllegalCommandCauses :
    [0x1000, 0x7FFF, 0x9100, 0xF500].map decodeCmd = List.replicate 4 (.illegal .rsvBits) ∧
      [0x0500, 0x0700, 0x8500, 0x8FFF].map decodeCmd = List.replicate 4 (.illegal .badAddr) ∧
      [0x8100, 0x8300, 0x8800, 0x8EFF].map decodeCmd = List.replicate 4 (.illegal .badDir) ∧
      [0x0400, 0x0800, 0x8400].map decodeCmd = [.op .rdDbgcnt, .op .rdEnergy0, .op (.wrDbgcnt 0)] ∧
      Regs.reset.errcause = 0 ∧ busy.errcause ≠ 0 := by decide

theorem witness_PseudoOperationsAssemble : (0 : Nat) ≤ 255 ∧ (255 : Nat) ≤ 255 := by decide

theorem witness_CenterSubtractsAndClamps :
    (((0 : Byte).toNat : Int) - 128 = -128) ∧ (((1 : Byte).toNat : Int) - 128 ≠ -128) := by decide

/-- Values just below and just above the two levels of `raw`. -/
theorem witness_EnergyOutScalesAndSaturates :
    energyRaw Config.params 2896 0 (Config.params.coef.get .c1) < 536870912 ∧
      536870912 ≤ energyRaw Config.params 2897 0 (Config.params.coef.get .c1) ∧
      energyRaw Config.params 1402 0 (Config.params.coef.get .r1) < 125829120 ∧
      125829120 ≤ energyRaw Config.params 1403 0 (Config.params.coef.get .r1) := by decide

/-- Energies with ties at both maxima. -/
theorem witness_WinnersAreLowestIndexMaxima :
    (90, 1) ∈ columnLevels ⟨80, 80, 80, 80, 0, 90, 90⟩ ∧ (columnWinner ⟨80, 80, 80, 80, 0, 90, 90⟩).1 = 90 ∧
      (80, 3) ∈ rowLevels ⟨80, 80, 80, 80, 0, 90, 90⟩ ∧ (rowWinner ⟨80, 80, 80, 80, 0, 90, 90⟩).1 = 80 := by decide

/-- CL-4, CL-14 and a digit that CL-15's energies are not. -/
theorem witness_ClassifyAcceptsExactlyDominantPairs :
    (1 : Code) ≠ 0 ∧ classify Config.params ⟨60, 0, 0, 0, 60, 0, 0⟩ = 1 ∧
      (10 : Code) ≠ 0 ∧ classify Config.params ⟨0, 0, 0, 255, 255, 85, 85⟩ = 10 ∧
      classify Config.params ⟨0, 0, 0, 255, 255, 86, 0⟩ ≠ 10 := by decide

theorem witness_ClassifyRangeIsTheCodes : (0 : Code).toNat ≤ 12 ∧ (12 : Code).toNat ≤ 12 := by decide

/-- CL-11's column tie and CL-10's row tie, and the least parameters the statement takes. -/
theorem witness_TiesAtTheMaximumAreRejected :
    (2 ≤ Config.params.crossDiv ∧ 1 ≤ Config.params.minColValue ∧
        ∃ a ∈ columnLevels ⟨0, 0, 0, 100, 90, 90, 0⟩, ∃ b ∈ columnLevels ⟨0, 0, 0, 100, 90, 90, 0⟩,
          a.2 ≠ b.2 ∧ a.1 = (columnWinner ⟨0, 0, 0, 100, 90, 90, 0⟩).1 ∧
            b.1 = (columnWinner ⟨0, 0, 0, 100, 90, 90, 0⟩).1) ∧
      (1 ≤ Config.params.minRowValue ∧
        ∃ a ∈ rowLevels ⟨90, 90, 0, 0, 0, 100, 0⟩, ∃ b ∈ rowLevels ⟨90, 90, 0, 0, 0, 100, 0⟩,
          a.2 ≠ b.2 ∧ a.1 = (rowWinner ⟨90, 90, 0, 0, 0, 100, 0⟩).1 ∧ b.1 = (rowWinner ⟨90, 90, 0, 0, 0, 100, 0⟩).1) ∧
      2 ≤ Params.crossDiv { crossDiv := 2, minColValue := 1, minRowValue := 1 } := by decide

/-- Both sides of both tests, the equal case among them, and a block that step 4 rejects (TW-2). -/
theorem witness_TwistTestsAreStrict :
    (128 : Nat) > 25 ∧ (128 : Nat) > 24 ∧ (128 : Nat) ≥ 19 ∧ (100 : Nat) ≥ 100 ∧
      twistRejects { minColValue := 1, minRowValue := 1 } (columnWinner ⟨24, 0, 0, 0, 128, 0, 0⟩).1
        (rowWinner ⟨24, 0, 0, 0, 128, 0, 0⟩).1 = true := by decide

theorem witness_TwistIsLiveOnlyUnderOtherThresholds :
    (Params.minColValue { minColValue := 1, minRowValue := 1 } ≤ 128 ∧
        Params.energyMax { minColValue := 1, minRowValue := 1 } ≥ 128 ∧
        Params.minRowValue { minColValue := 1, minRowValue := 1 } ≤ 24 ∧
        twistRejects { minColValue := 1, minRowValue := 1 } 128 24 = true) ∧
      (60 : Nat) ≤ 60 ∧ (60 : Nat) ≤ 255 ∧ (255 : Nat) ≤ 255 := by decide

/-- A continuation at the longest dropout (DB-12), a restart one silent block later (DB-13), another digit (DB-16). -/
theorem witness_ToneBlockContinuesOrRestarts :
    ((5 : Code) ≠ 0 ∧ (5 : Code) = (DecoderState.mk 5 2 2).activeDigit ∧
        (DecoderState.mk 5 2 2).silenceCount.toNat ≤ Config.params.maxToneDropout) ∧
      (DecoderState.mk 5 2 3).silenceCount.toNat > Config.params.maxToneDropout ∧
      (1 : Code) ≠ (DecoderState.mk 12 4 0).activeDigit := by decide

/-- DB-14, DB-15 and DB-8, and a candidate whose silence is one block too short; 4 is the counted silence of the first two. -/
theorem witness_SilenceBlockConfirmsOrWaits :
    Config.params.countMax ≤ 255 ∧
      ((4 : Byte).toNat = min ((3 : Byte).toNat + 1) Config.params.countMax ∧
        (DecoderState.mk 5 3 3).activeDigit ≠ 0 ∧ Config.params.minSilence ≤ (4 : Byte).toNat ∧
        Config.params.minTone ≤ (DecoderState.mk 5 3 3).activeCount.toNat) ∧
      (DecoderState.mk 5 2 3).activeCount.toNat < Config.params.minTone ∧
      (DecoderState.mk 0 0 3).activeDigit = 0 ∧
      (3 : Byte).toNat = min ((2 : Byte).toNat + 1) Config.params.countMax ∧ (3 : Byte).toNat < Config.params.minSilence := by
  decide

theorem witness_CountersSaturateAndNeverWrap : (12 : Code) ≠ 0 ∧ (1 : Nat) ≤ 1 ∧ (3 : Nat) ≤ 3 := by decide

/-- The nearest two publishes: 7 blocks apart. -/
theorem witness_PublishesAreSevenBlocksApart :
    (6 : Nat) < 13 ∧
      (debounceRun Config.params ⟨0, 0, 0⟩ [5, 5, 5, 0, 0, 0, 0, 9, 9, 9, 0, 0, 0, 0]).2.getD 6 0 ≠ 0 ∧
      (debounceRun Config.params ⟨0, 0, 0⟩ [5, 5, 5, 0, 0, 0, 0, 9, 9, 9, 0, 0, 0, 0]).2.getD 13 0 ≠ 0 := by decide

theorem witness_PublishedDigitWasHeardAndThenSilent :
    (5 : Code) ≠ 0 ∧ (debounceRun Config.params ⟨0, 0, 0⟩ [5, 0, 5, 0, 5, 0, 0, 0, 0]).2.getLast? = some 5 := by decide

theorem witness_WorkedDebounceTraces : (5 : Code) ≠ 0 := by decide

/-- A read of the register `n`, with DATA 0xFF, in the step of a block's last sample. -/
def readState (n : RegName) : State := facing lastSilent (both 128 (assembleCmd false n 0xFF))

/-- The hypotheses of `ReadsPreStepValue n` on the state `s`. -/
def MeetsRead (n : RegName) (s : State) : Prop :=
  ∃ inp t, s.inputs = [inp] ∧ inp.rst = false ∧ inp.cmdValid = true ∧ decodeCmd inp.cmd = .op (readOp n) ∧
    step s.withoutCommand = .next t

theorem witness_RdCtrlReadsEnabled :
    MeetsRead .ctrl (readState .ctrl) ∧ ∃ t u, exec (.wrCtrl 1) (at' busy) = .next t ∧ exec .rdCtrl t = .next u :=
  ⟨⟨_, _, rfl, rfl, rfl, by decide, rfl⟩, _, _, rfl, rfl⟩

theorem witness_RdStatusReadsTheFlags :
    MeetsRead .status (readState .status) ∧
      ∃ t, ({ busy with errcause := 0, dbgRemain := 0 } : Regs).mailbox ≠ 0 ∧
        exec .rdStatus (at' { busy with errcause := 0, dbgRemain := 0 }) = .next t :=
  ⟨⟨_, _, rfl, rfl, rfl, by decide, rfl⟩, _, by decide, rfl⟩

/-- A take in a publishing step, two takes in a row, a take while disabled, and a take of 12. -/
theorem witness_RdDigitTakesBeforeAPublish :
    MeetsRead .digit (readState .digit) ∧ (∃ t u, exec .rdDigit (at' busy) = .next t ∧ exec .rdDigit t = .next u) ∧
      (State.reset.regs.Inv ∧ State.reset.regs.enabled = false ∧ ∃ t, exec .rdDigit State.reset = .next t) ∧
      busy.mailbox = 12 :=
  ⟨⟨_, _, rfl, rfl, rfl, by decide, rfl⟩, ⟨_, _, rfl, rfl⟩,
    ⟨⟨by decide, by decide, by decide, by decide, by decide, by decide, fun _ => ⟨rfl, rfl, rfl, rfl, rfl⟩⟩, rfl, _, rfl⟩, rfl⟩

theorem witness_RdErrcauseReadsTheLatch :
    MeetsRead .errcause (readState .errcause) ∧
      ∃ t, State.reset.regs.errcause = 0 ∧ exec .rdErrcause (raiseIllegal .badAddr State.reset) = .next t :=
  ⟨⟨_, _, rfl, rfl, rfl, by decide, rfl⟩, _, rfl, rfl⟩

theorem witness_RdDbgcntReadsTheCount :
    MeetsRead .dbgcnt (readState .dbgcnt) ∧
      ∃ t u v, lastSilent.enabled = true ∧ lastSilent.idx = 99 ∧ exec (.wrDbgcnt 3) (at' lastSilent) = .next t ∧
        exec (.sample 128) t = .next u ∧ exec .rdDbgcnt u = .next v :=
  ⟨⟨_, _, rfl, rfl, rfl, by decide, rfl⟩, _, _, _, rfl, rfl, rfl, rfl, rfl⟩

theorem witness_RdEnergyReadsTheLatchedEnergy :
    MeetsRead (.energy .r1) (readState (.energy .r1)) ∧ MeetsRead (.energy .c3) (readState (.energy .c3)) ∧
      (∃ t, step (readState (.energy .c2)) = .next t) ∧
      ∃ t, busy.energy = ⟨5, 114, 0, 0, 2, 118, 2⟩ ∧ exec .rdEnergy5 (at' busy) = .next t :=
  ⟨⟨_, _, rfl, rfl, rfl, by decide, rfl⟩, ⟨_, _, rfl, rfl, rfl, by decide, rfl⟩, ⟨_, rfl⟩, _, rfl, rfl⟩

/-- A lifecycle write beside a sample. -/
theorem witness_WrCtrlRestartsTheDecoder :
    (facing busy (both 200 0x8001)).inputs = both 200 0x8001 :: [] ∧ (both 200 0x8001).rst = false ∧
      (both 200 0x8001).cmdValid = true ∧ decodeCmd (both 200 0x8001).cmd = .op (.wrCtrl 1) := by decide

theorem witness_WrCtrlDisableStopsTheDecoder :
    BitVec.getLsbD (0xFE : Byte) 0 = false ∧
      ∃ t u v, exec (.wrCtrl 0) (at' busy) = .next t ∧ exec (.wrCtrl 0) t = .next u ∧ exec .rdDigit t = .next v :=
  ⟨by decide, _, _, _, rfl, rfl, rfl⟩

/-- The write beside a block's last sample, and completing steps with and without a dump in progress. -/
theorem witness_WrDbgcntWinsOverTheDecrement :
    ((facing lastOfB5 (both 113 0x8405)).inputs = both 113 0x8405 :: [] ∧ (both 113 0x8405).rst = false ∧
        (both 113 0x8405).cmdValid = true ∧ decodeCmd (both 113 0x8405).cmd = .op (.wrDbgcnt 5) ∧
        ∃ t, step (facing lastOfB5 (both 113 0x8405)).withoutCommand = .next t) ∧
      ((facing lastOfB5 (both 113 0x8405)).completesBlock = true ∧ lastOfB5.dbgRemain ≠ 0 ∧
        ∃ t, step (facing lastOfB5 (both 113 0x8405)) = .next t) ∧
      ((facing { lastOfB5 with dbgRemain := 0 } (both 113 0x8405)).completesBlock = true ∧
        ∃ t, step (facing { lastOfB5 with dbgRemain := 0 } (both 113 0x8405)) = .next t) :=
  ⟨⟨rfl, rfl, rfl, by decide, _, rfl⟩, ⟨by decide, by decide, _, rfl⟩, by decide, _, rfl⟩

/-- Disabled; enabled at index 0, 5, 98 and 99; a lifecycle write; a reset step. -/
theorem witness_SampleAdvancesOrCompletes :
    State.reset.regs.enabled = false ∧
      (busy.enabled = true ∧ (0 : BitVec 7) ≠ 99 ∧ (98 : BitVec 7) ≠ 99 ∧ busy.idx = 5) ∧
      (lastSilent.enabled = true ∧ lastSilent.idx = 99) ∧
      ((facing busy (both 200 0x8000)).inputs = both 200 0x8000 :: [] ∧ decodeCmd (both 200 0x8000).cmd = .op (.wrCtrl 0)) ∧
      (facing busy { both 200 0x8000 with rst := true }).inputs = { both 200 0x8000 with rst := true } :: [] ∧
      ∃ t, exec (.sample 200) (at' busy) = .next t :=
  ⟨rfl, ⟨rfl, by decide, by decide, rfl⟩, ⟨rfl, rfl⟩, ⟨rfl, by decide⟩, rfl, _, rfl⟩

theorem witness_LastSampleCompletesTheBlock : lastOfB5.enabled = true ∧ lastOfB5.idx = 99 := by decide

theorem witness_StepRunsTheDecodedOperation :
    (facing busy (only 0x8001)).inputs = portInput (.cmd 0x8001) :: [] ∧ decode (.cmd 0x8001) = .op (.wrCtrl 1) ∧
      (facing busy (portInput (.sample 200))).inputs = portInput (.sample 200) :: [] ∧
      decode (.sample 200) = .op (.sample 200) := by decide

/-- A take, a dump write and a lifecycle write, each beside a sample. -/
theorem witness_StepRunsBothPortsOperations :
    (facing busy (both 200 0x0200)).inputs = both 200 0x0200 :: [] ∧ (both 200 0x0200).rst = false ∧
      (both 200 0x0200).cmdValid = true ∧ (both 200 0x0200).sampleValid = true ∧
      decodeCmd (both 200 0x0200).cmd = .op .rdDigit ∧ (∀ d, Instr.rdDigit ≠ .wrCtrl d) ∧
      (∀ d, Instr.rdDigit ≠ .wrDbgcnt d) ∧ decodeCmd (both 200 0x8405).cmd = .op (.wrDbgcnt 5) ∧
      decodeCmd (both 200 0x8001).cmd = .op (.wrCtrl 1) :=
  ⟨rfl, rfl, rfl, rfl, by decide, (fun _ h => nomatch h), (fun _ h => nomatch h), by decide, by decide⟩

theorem witness_PlacedWordIsRunNext :
    decodeTableWord 16 0x02FF = some .rdDigit ∧ decodeTableWord 8 255 = some (.sample 255) := by decide

/-- A reset step with both ports busy and a digit pending, and the step after it. -/
theorem witness_ResetStepOverridesThePorts :
    (facing busy { both 200 0x8001 with rst := true }).inputs = { both 200 0x8001 with rst := true } :: [] ∧
      ∃ t u, step (facing busy { both 200 0x8001 with rst := true }) = .next t ∧ step t = .next u :=
  ⟨rfl, _, _, rfl, rfl⟩

/-- No sample; a sample while disabled; nothing waiting. -/
theorem witness_IdleStepChangesNothing :
    ((facing busy {}).ports.rst = false ∧ (facing busy {}).ports.cmdValid = false ∧
        (facing busy {}).ports.sampleValid = false) ∧
      ((facing Regs.reset (portInput (.sample 200))).ports.cmdValid = false ∧
        (facing Regs.reset (portInput (.sample 200))).regs.enabled = false) ∧
      (at' busy).ports.sampleValid = false := by decide

/-- Illegal commands beside a sample, with the latch set and clear. -/
theorem witness_IllegalCommandOnlyLatchesItsCause :
    (facing busy (both 200 0x8200)).inputs = both 200 0x8200 :: [] ∧ (both 200 0x8200).rst = false ∧
      (both 200 0x8200).cmdValid = true ∧ decodeCmd (both 200 0x8200).cmd = .illegal .badDir ∧ busy.errcause ≠ 0 ∧
      (∃ t, step (facing busy (both 200 0x8200)).withoutCommand = .next t) ∧
      lastOfB5.errcause = 0 ∧ ∃ t, step (facing lastOfB5 (both 113 0x0600)).withoutCommand = .next t :=
  ⟨rfl, rfl, rfl, by decide, by decide, ⟨_, rfl⟩, rfl, _, rfl⟩

/-- A busy state that has the invariants and completes a block. -/
theorem witness_EveryStepKeepsTheInvariants :
    (facing lastSilent (both 128 0x0200)).regs.Inv ∧ ∃ t, step (facing lastSilent (both 128 0x0200)) = .next t :=
  ⟨⟨by decide, by decide, by decide, by decide, by decide, by decide, (fun h => nomatch h)⟩, _, rfl⟩

/-- One sample into a block (95_test_vectors.md section 2.2: after x = 57 every `Q1[t]` is 57). -/
theorem witness_EveryStepKeepsTheFiltersInStep :
    Regs.Streaming { Regs.reset with enabled := true, idx := 1, q1 := Bank.const 57 } ∧
      ∃ t, step (facing { Regs.reset with enabled := true, idx := 1, q1 := Bank.const 57 } (portInput (.sample 200))) = .next t :=
  ⟨⟨by decide, [185], by decide, fun t => by cases t <;> decide⟩, _, rfl⟩

/-- One sample into a block that starts at the lower limit, and a block boundary, each with a sample waiting. -/
theorem witness_EveryStepKeepsTheFiltersInTheirWidth :
    (Regs.Streaming { Regs.reset with enabled := true, idx := 1, q1 := Bank.const (-127) } ∧
        ∃ t, step (facing { Regs.reset with enabled := true, idx := 1, q1 := Bank.const (-127) } (portInput (.sample 0))) =
          .next t) ∧
      Regs.Streaming { Regs.reset with enabled := true } ∧
        ∃ t, step (facing { Regs.reset with enabled := true } (portInput (.sample 255))) = .next t :=
  ⟨⟨⟨by decide, [0], by decide, fun t => by cases t <;> decide⟩, _, rfl⟩,
    ⟨by decide, [], by decide, fun t => by cases t <;> decide⟩, _, rfl⟩

theorem witness_RecursionStaysWithinItsBounds :
    (List.replicate 100 (127 : Int)).length ≤ 100 ∧ (∀ x ∈ List.replicate 100 (127 : Int), -127 ≤ x ∧ x ≤ 127) ∧
      ∀ x ∈ [(-127 : Int), 127], -127 ≤ x ∧ x ≤ 127 := by decide

/-- Reset, INIT and a first sample. -/
theorem witness_ReachableRecursionRegistersFitTheirWidth :
    ∃ s, Reachable s ∧ s.regs.idx = 1 ∧ s.regs.q1 = Bank.const 57 :=
  ⟨_, .next (.next (.start [only 0x8001, portInput (.sample 185)]) rfl) rfl, by decide, by decide⟩

/-- A block boundary with a candidate, and 100 silent samples waiting before one more input. -/
theorem witness_HundredSamplesAreOneBlock :
    ({ lastSilent with idx := 0 } : Regs).enabled = true ∧ ({ lastSilent with idx := 0 } : Regs).q1 = Bank.const 0 ∧
      ({ lastSilent with idx := 0 } : Regs).q2 = Bank.const 0 ∧ (List.replicate 100 (128 : Byte)).length = 100 ∧
      ({ regs := { lastSilent with idx := 0 }, out := Outputs.quiet,
         inputs := (List.replicate 100 (128 : Byte)).map sampleStep ++ [only 0x0200] } : State).inputs =
        (List.replicate 100 (128 : Byte)).map sampleStep ++ [only 0x0200] :=
  ⟨rfl, rfl, rfl, List.length_replicate, rfl⟩

/-- Two blocks. -/
theorem witness_ConsecutiveBlocksAreDecodedInOrder :
    (∀ b ∈ [List.replicate 100 (128 : Byte), List.replicate 100 255], b.length = 100) ∧
      ({ regs := { Regs.reset with enabled := true }, out := Outputs.quiet,
         inputs := [List.replicate 100 (128 : Byte), List.replicate 100 255].flatten.map sampleStep ++ [] } : State).inputs =
        [List.replicate 100 (128 : Byte), List.replicate 100 255].flatten.map sampleStep ++ [] ∧
      ({ Regs.reset with enabled := true } : Regs).idx = 0 ∧ ({ Regs.reset with enabled := true } : Regs).q1 = Bank.const 0 ∧
      ({ Regs.reset with enabled := true } : Regs).q2 = Bank.const 0 :=
  ⟨by simp, rfl, rfl, rfl, rfl⟩

/-- INIT while disabled, and a reset while enabled. -/
theorem witness_EnabledChangesOnlyByLifecycleOrReset :
    (∃ t, step (facing Regs.reset (only 0x8001)) = .next t ∧ t.regs.enabled ≠ Regs.reset.enabled) ∧
      ∃ t, step (facing busy { rst := true }) = .next t ∧ t.regs.enabled ≠ busy.enabled :=
  ⟨⟨_, rfl, by decide⟩, _, rfl, by decide⟩

/-- A reset, a lifecycle write, a completing step and another step. -/
theorem witness_DecoderStateChangesOncePerBlock :
    (∃ t, step (facing busy { rst := true }) = .next t) ∧
      ((only 0x8001).isLifecycle = true ∧ ∃ t, step (facing busy (only 0x8001)) = .next t) ∧
      ((facing lastSilent (both 128 0x0200)).completesBlock = true ∧
        ∃ t, step (facing lastSilent (both 128 0x0200)) = .next t) ∧
      ((facing busy (both 128 0x0200)).completesBlock = false ∧ ∃ t, step (facing busy (both 128 0x0200)) = .next t) :=
  ⟨⟨_, rfl⟩, ⟨by decide, _, rfl⟩, ⟨by decide, _, rfl⟩, by decide, _, rfl⟩

/-- A publish beside a take, a take alone, a lifecycle write, a reset, and a step that leaves the slot. -/
theorem witness_MailboxChangesOnlyByPublishTakeAndReset :
    ((both 128 0x0200).isTake = true ∧
        ∃ t, step (facing lastSilent (both 128 0x0200)) = .next t ∧ t.out.pubValid = true) ∧
      (∃ t, step (facing busy { only 0x0200 with rst := true }) = .next t) ∧ (∃ t, exec .rdStatus (at' busy) = .next t) ∧
      (∃ t, step (facing busy (only 0x0200)) = .next t ∧ t.out.pubValid = false) ∧
      ((only 0x8000).isLifecycle = true ∧ ∃ t, step (facing busy (only 0x8000)) = .next t) ∧
      ((only 0x0100).isTake = false ∧ ∃ t, step (facing busy (only 0x0100)) = .next t) :=
  ⟨⟨by decide, _, rfl, by decide⟩, ⟨_, rfl⟩, ⟨_, rfl⟩, ⟨_, rfl, by decide⟩, ⟨by decide, _, rfl⟩, by decide, _, rfl⟩

/-- A reset, an illegal command with the latch set and clear, a legal command, and no command. -/
theorem witness_ErrcauseHoldsTheFirstCauseUntilReset :
    (∃ t, step (facing busy { rst := true }) = .next t) ∧
      (busy.errcause ≠ 0 ∧ ∃ t, step (facing busy (only 0x8100)) = .next t) ∧
      (Regs.reset.errcause = 0 ∧ decodeCmd 0x0600 = .illegal .badAddr ∧ ∃ t, step (facing Regs.reset (only 0x0600)) = .next t) ∧
      (∃ t, step (facing Regs.reset (only 0x0100)) = .next t) ∧ (∃ t, step (facing Regs.reset {}) = .next t) ∧
      ∃ t, exec .rdStatus (at' busy) = .next t :=
  ⟨⟨_, rfl⟩, ⟨by decide, _, rfl⟩, ⟨by decide, by decide, _, rfl⟩, ⟨_, rfl⟩, ⟨_, rfl⟩, _, rfl⟩

/-- Block B5's last sample with and without a dump in progress. -/
theorem witness_DumpNeverAltersDecoding :
    (facing lastOfB5 (both 113 0x0100)).inputs =
        (facing { lastOfB5 with dbgRemain := 0, energy := Bank.const 9 } (both 113 0x0100)).inputs ∧
      lastOfB5.withoutDump = ({ lastOfB5 with dbgRemain := 0, energy := Bank.const 9 } : Regs).withoutDump ∧
      (∃ t, step (facing lastOfB5 (both 113 0x0100)) = .next t) ∧
      ∃ t, step (facing { lastOfB5 with dbgRemain := 0, energy := Bank.const 9 } (both 113 0x0100)) = .next t :=
  ⟨rfl, rfl, ⟨_, rfl⟩, _, rfl⟩

/-- A take against no command, beside a block's last sample. -/
theorem witness_ConsumerNeverDisturbsTheSamplePath :
    StepInput.isLifecycle { both 128 0 with cmdValid := true, cmd := 0x0200 } = false ∧
      StepInput.isLifecycle { both 128 0 with cmdValid := false, cmd := 0x8001 } = false ∧
      (∃ t, step (facing lastSilent { both 128 0 with cmdValid := true, cmd := 0x0200 }) = .next t) ∧
      ∃ t, step (facing lastSilent { both 128 0 with cmdValid := false, cmd := 0x8001 }) = .next t :=
  ⟨by decide, by decide, ⟨_, rfl⟩, _, rfl⟩

end Sys2Proof.Tests
end

section
/-! PROOFS. The operation map of 30_encoding.md R82 against the decoder of R83: both read a command word through its fields
`W`, `RSV` and `ADDR`, and the mask 0xFF00 keeps exactly these three. -/

namespace Sys2Proof

/-! ### The mask and the fields of a command word (R80, R82) -/

@[simp] theorem cmdW_and_opMask (w : CmdWord) : cmdW (w &&& opMask) = cmdW w := by
  simp [cmdW, opMask]

@[simp] theorem cmdRsv_and_opMask (w : CmdWord) : cmdRsv (w &&& opMask) = cmdRsv w := by
  have mask : opMask.extractLsb' 12 3 = BitVec.allOnes 3 := by decide
  rw [cmdRsv, BitVec.extractLsb'_and, mask, BitVec.and_allOnes, cmdRsv]

@[simp] theorem cmdAddr_and_opMask (w : CmdWord) : cmdAddr (w &&& opMask) = cmdAddr w := by
  have mask : opMask.extractLsb' 8 4 = BitVec.allOnes 4 := by decide
  rw [cmdAddr, BitVec.extractLsb'_and, mask, BitVec.and_allOnes, cmdAddr]

/-- The mask clears `DATA` and keeps the other fields. -/
theorem and_opMask_eq_fields (w : CmdWord) :
    w &&& opMask = BitVec.ofBool (cmdW w) ++ cmdRsv w ++ cmdAddr w ++ 0#8 := by
  apply BitVec.eq_of_getLsbD_eq
  intro i hi
  simp only [opMask, cmdW, cmdRsv, cmdAddr, BitVec.getLsbD_append]
  interval_cases i <;> simp

/-- Under the mask a word is a register's read or write exactly when its fields say so. -/
theorem and_opMask_eq_assembleCmd_iff (w : CmdWord) (b : Bool) (r : RegName) :
    w &&& opMask = assembleCmd b r 0 ↔ cmdW w = b ∧ cmdRsv w = 0 ∧ cmdAddr w = r.addr := by
  constructor
  · intro h
    rw [← cmdW_and_opMask w, ← cmdRsv_and_opMask w, ← cmdAddr_and_opMask w, h]
    simp
  · rintro ⟨hw, hrsv, haddr⟩
    rw [and_opMask_eq_fields, hw, hrsv, haddr]
    rfl

theorem assembleCmd_and_opMask (b : Bool) (r : RegName) (d : Byte) :
    assembleCmd b r d &&& opMask = assembleCmd b r 0 :=
  (and_opMask_eq_assembleCmd_iff _ b r).mpr ⟨by simp, by simp, by simp⟩

/-! ### The decoder from the fields (R83) -/

/-- The command a register answers: its write with `DATA = d`, or its read. -/
def commandOp (write : Bool) (r : RegName) (d : Byte) : Decoded :=
  if write then writeOp d r else .op (readOp r)

theorem decodeCmd_eq_commandOp {w : CmdWord} {r : RegName} (hrsv : cmdRsv w = 0) (haddr : cmdAddr w = r.addr) :
    decodeCmd w = commandOp (cmdW w) r (cmdData w) := by
  simp [decodeCmd, commandOp, hrsv, haddr]

/-- A legal word has `RSV = 0` and a register's address, and stands for that register's command. -/
theorem fields_of_decodeCmd_eq_op {w : CmdWord} {i : Instr} (h : decodeCmd w = .op i) :
    cmdRsv w = 0 ∧ ∃ r : RegName, cmdAddr w = r.addr ∧ commandOp (cmdW w) r (cmdData w) = .op i := by
  by_cases hrsv : cmdRsv w = 0
  · cases hr : regAt (cmdAddr w) with
    | none => simp [decodeCmd, hrsv, hr] at h
    | some r =>
      have haddr : cmdAddr w = r.addr := (addr_of_regAt hr).symm
      exact ⟨hrsv, r, haddr, (decodeCmd_eq_commandOp hrsv haddr).symm.trans h⟩
  · rw [decodeCmd, if_pos hrsv] at h
    cases h

/-! ### The encoder on a register's command (R91) -/

theorem encode_readOp (r : RegName) : encode (readOp r) = .cmd (assembleCmd false r 0) := by
  cases r with
  | energy t => cases t <;> rfl
  | _ => rfl

theorem encode_of_writeOp_eq_op {d : Byte} {r : RegName} {i : Instr} (h : writeOp d r = .op i) :
    encode i = .cmd (assembleCmd true r d) := by
  cases r with
  | ctrl | dbgcnt =>
    cases h
    rfl
  | status | digit | errcause | energy t => cases h

theorem encode_of_commandOp_eq_op {b : Bool} {r : RegName} {d : Byte} {i : Instr} (h : commandOp b r d = .op i) :
    encode i = .cmd (assembleCmd b r (if b then d else 0)) := by
  cases b with
  | true => exact encode_of_writeOp_eq_op h
  | false =>
    obtain rfl : readOp r = i := Decoded.op.inj h
    exact encode_readOp r

/-- A legal word and its operation's encoding are one word under the mask. -/
theorem encode_and_opMask_of_decodeCmd {w : CmdWord} {i : Instr} (h : decodeCmd w = .op i) :
    ∃ w', encode i = .cmd w' ∧ w' &&& opMask = w &&& opMask := by
  obtain ⟨hrsv, r, haddr, hop⟩ := fields_of_decodeCmd_eq_op h
  refine ⟨_, encode_of_commandOp_eq_op hop, ?_⟩
  rw [assembleCmd_and_opMask, (and_opMask_eq_assembleCmd_iff w (cmdW w) r).mpr ⟨rfl, hrsv, haddr⟩]

/-! ### The rows of the map (R82) -/

/-- A row's pattern is its `W` and its address, with `RSV` and `DATA` 0. -/
theorem opMap_pattern : ∀ row ∈ opMap, row.pattern = BitVec.ofBool row.write ++ 0#3 ++ row.addr ++ 0#8 := by
  decide

/-- The register at a row's address has the row's command, legal at every `DATA`. -/
theorem exists_commandOp_of_mem_opMap {row : OpRow} (h : row ∈ opMap) :
    ∃ r, regAt row.addr = some r ∧ ∀ d, ∃ i, commandOp row.write r d = .op i ∧ i.mnemonic = row.mnemonic := by
  simp only [opMap, List.mem_cons, List.not_mem_nil, or_false] at h
  obtain rfl | rfl | rfl | rfl | rfl | rfl | rfl | rfl | rfl | rfl | rfl | rfl | rfl | rfl := h <;>
    exact ⟨_, rfl, fun _ => ⟨_, rfl, rfl⟩⟩

/-- Every word that matches a row under the mask decodes to the row's operation. -/
theorem decodeCmd_of_matches_row {row : OpRow} (hrow : row ∈ opMap) {w : CmdWord} (hw : w &&& opMask = row.pattern) :
    ∃ i, decodeCmd w = .op i ∧ i.mnemonic = row.mnemonic := by
  obtain ⟨r, hr, hop⟩ := exists_commandOp_of_mem_opMap hrow
  have hmask : w &&& opMask = assembleCmd row.write r 0 := by
    rw [hw, opMap_pattern row hrow, ← addr_of_regAt hr]
    rfl
  obtain ⟨hwrite, hrsv, haddr⟩ := (and_opMask_eq_assembleCmd_iff w row.write r).mp hmask
  rw [decodeCmd_eq_commandOp hrsv haddr, hwrite]
  exact hop (cmdData w)

/-- Every operation's encoding is on its row of the map, or on the sample port. -/
theorem encode_on_operationMap : ∀ i : Instr, Laws.OperationMap.Statement i
  | .rdCtrl => Laws.OperationMap.rdCtrl
  | .wrCtrl d => Laws.OperationMap.wrCtrl d
  | .rdStatus => Laws.OperationMap.rdStatus
  | .rdDigit => Laws.OperationMap.rdDigit
  | .rdErrcause => Laws.OperationMap.rdErrcause
  | .rdDbgcnt => Laws.OperationMap.rdDbgcnt
  | .wrDbgcnt d => Laws.OperationMap.wrDbgcnt d
  | .rdEnergy0 => Laws.OperationMap.rdEnergy0
  | .rdEnergy1 => Laws.OperationMap.rdEnergy1
  | .rdEnergy2 => Laws.OperationMap.rdEnergy2
  | .rdEnergy3 => Laws.OperationMap.rdEnergy3
  | .rdEnergy4 => Laws.OperationMap.rdEnergy4
  | .rdEnergy5 => Laws.OperationMap.rdEnergy5
  | .rdEnergy6 => Laws.OperationMap.rdEnergy6
  | .sample u => Laws.OperationMap.sample u

/-- Every legal word matches the row of its operation. -/
theorem matches_row_of_decodeCmd {w : CmdWord} {i : Instr} (h : decodeCmd w = .op i) :
    ∃ row ∈ opMap, w &&& opMask = row.pattern ∧ i.mnemonic = row.mnemonic := by
  obtain ⟨w', henc, hmask⟩ := encode_and_opMask_of_decodeCmd h
  have hrow := encode_on_operationMap i
  simp only [Laws.OperationMap.Statement, henc] at hrow
  obtain ⟨row, hmem, hmnemonic, hhits⟩ := hrow
  exact ⟨row, hmem, hmask.symm.trans (beq_iff_eq.mp hhits), hmnemonic.symm⟩

/-- Settles O4: the rows are read off the map, and mask and decoder read the same three fields of a word. -/
theorem legalCommandsAreTheOperationMap : Obligations.LegalCommandsAreTheOperationMap := by
  refine ⟨rfl, by decide, opMap_pattern, fun w => ⟨?_, ?_⟩⟩
  · exact fun row hrow hw => decodeCmd_of_matches_row hrow hw
  · exact fun i hi => matches_row_of_decodeCmd hi

end Sys2Proof
end

section
/-! PROOFS. The client's view of the encoding: the pseudo-operations of 30_encoding.md R92 and the tables of R88. -/

namespace Sys2Proof.Machine

/-- `DATA` fills bits 7:0 of the word and no other (R80). -/
theorem assembleCmd_eq_or_data (b : Bool) (r : RegName) (d : Byte) :
    assembleCmd b r d = assembleCmd b r 0 ||| d.setWidth 16 := by
  apply BitVec.eq_of_getLsbD_eq
  intro i hi
  simp only [assembleCmd, BitVec.getLsbD_or, BitVec.getLsbD_append, BitVec.getLsbD_setWidth, hi]
  by_cases h : i < 8
  · simp [h]
  · simp [h, BitVec.getLsbD_of_ge d i (by omega)]

/-- An operand that fits `DATA` is the same number in the whole word. -/
theorem setWidth_ofNat_operand {k : Nat} (hk : k ≤ 255) : (BitVec.ofNat 8 k).setWidth 16 = BitVec.ofNat 16 k := by
  apply BitVec.eq_of_toNat_eq
  simp only [BitVec.toNat_setWidth, BitVec.toNat_ofNat]
  omega

/-- The word of `DEBUG <k>` (R92). -/
theorem debug_word_eq {k : Nat} (hk : k ≤ 255) :
    (AsmCommand.wr .dbgcnt k).word = 0x8400 ||| BitVec.ofNat 16 k :=
  calc assembleCmd true .dbgcnt (BitVec.ofNat 8 k)
    _ = assembleCmd true .dbgcnt 0 ||| (BitVec.ofNat 8 k).setWidth 16 := assembleCmd_eq_or_data ..
    _ = 0x8400 ||| BitVec.ofNat 16 k := by rw [setWidth_ofNat_operand hk]; rfl

/-- Settles O7: five of the six lines assemble by evaluation; DEBUG's operand is free. -/
theorem pseudoOperationsAssemble : Obligations.PseudoOperationsAssemble := by
  refine ⟨rfl, rfl, rfl, fun k hk => ?debug, fun u => ?push, rfl⟩
  case debug => simp only [Line.debug, Line.input, debug_word_eq hk]
  case push => simp only [Line.push, Line.input, BitVec.ofNat_toNat, BitVec.setWidth_eq]

/-- Settles O8: the three tables, each evaluated at its 16 codes. -/
theorem symbolTable : Obligations.SymbolTable :=
  ⟨by decide, by decide, by decide⟩

end Sys2Proof.Machine
end

section
/-! PROOFS. The sample path at the core's parameters (40_pipeline.md R110-R112): the model's centering, recursion and block
completion in the terms of the statements, and the meaning of SAMPLE in its three cases. -/

namespace Sys2Proof.Machine

/-! ### Centering and the recursion (R110, R132) -/

/-- R110's formula: of the two ends of the clamp only the lower one is ever reached. -/
theorem center_eq (u : Byte) :
    center Config.params u = if (u.toNat : Int) - 128 = -128 then -127 else (u.toNat : Int) - 128 := by
  have hu : u.toNat < 256 := u.isLt
  simp only [center, clamp, Config.params]
  split <;> omega

/-- Only the raw sample 0 is clamped. -/
theorem center_ne_sub_iff (u : Byte) : center Config.params u ≠ (u.toNat : Int) - 128 ↔ u = 0 := by
  have hzero : u = 0 ↔ u.toNat = 0 := BitVec.toNat_inj.symm
  rw [center_eq, hzero]
  split <;> omega

/-- Settles O9: the formula, the range of a clamped value, and the one sample that the clamp moves. -/
theorem centerSubtractsAndClamps : Obligations.CenterSubtractsAndClamps :=
  ⟨center_eq, center_mem Config.params, center_ne_sub_iff, by decide, by decide, by decide, by decide, by decide, by decide⟩

theorem asr_eq_fdiv (v : Int) (k : Nat) : asr v k = Int.fdiv v (2 ^ k) :=
  (Int.fdiv_eq_ediv_of_nonneg v (by positivity)).symm

/-- The recursion step at the default STEP_SHIFT (R132). -/
theorem goertzelStep_params (q1 q2 x : Int) (c : Nat) :
    goertzelStep Config.params q1 q2 x c = (x + Int.fdiv (c * q1) 64 - q2, q1) := by
  simp [goertzelStep, asr_eq_fdiv, Config.params]

@[simp] theorem nextQ1_center (r : Regs) (u : Byte) :
    nextQ1 Config.params r (center Config.params u) = r.q1After u := by
  simp [nextQ1, Regs.q1After, goertzelStep_params]

@[simp] theorem nextQ2_eq_q1 (p : Params) (r : Regs) (x : Int) : nextQ2 p r x = r.q1 :=
  Bank.ext_get fun t => nextQ2_get p r x t

theorem bankEnergies_q1After (r : Regs) (u : Byte) :
    bankEnergies Config.params (r.q1After u) r.q1 = r.energiesAfter u := rfl

theorem blockVerdict_energiesAfter (r : Regs) (u : Byte) :
    blockVerdict Config.params r (r.energiesAfter u) = r.verdictAfter u := rfl

/-! ### SAMPLE (R111, R112) -/

theorem idx_last_iff (i : BitVec 7) : i.toNat = Config.params.nBlock - 1 ↔ i = 99 :=
  BitVec.toNat_inj (y := 99)

theorem acceptSample_of_disabled (p : Params) (u : Byte) {s : State} (he : s.regs.enabled = false) :
    acceptSample p u s = s := by
  simp [acceptSample, he]

theorem acceptSample_inside_block (u : Byte) {s : State} (he : s.regs.enabled = true) (hi : s.regs.idx ≠ 99) :
    acceptSample Config.params u s = s.setRegs (s.regs.setFilters (s.regs.q1After u) s.regs.q1 (s.regs.idx + 1)) := by
  have hlast : lastOfBlock Config.params s.regs = false := by
    simpa [lastOfBlock] using mt (idx_last_iff _).mp hi
  simp [acceptSample, he, hlast]

theorem acceptSample_last_of_block (u : Byte) {s : State} (he : s.regs.enabled = true) (hi : s.regs.idx = 99) :
    acceptSample Config.params u s = blockComplete Config.params (s.regs.q1After u) s.regs.q1 s := by
  have hlast : lastOfBlock Config.params s.regs = true := by
    simpa [lastOfBlock] using (idx_last_iff _).mpr hi
  simp [acceptSample, he, hlast]

theorem exec_sample (u : Byte) (s : State) : exec (.sample u) s = .next (acceptSample Config.params u s) := rfl

/-- Block completion on the filters' values after the block's last sample: `blockComplete_eq` in the statements' terms. -/
theorem blockComplete_q1After (u : Byte) (s : State) :
    blockComplete Config.params (s.regs.q1After u) s.regs.q1 s =
      { s with
        regs :=
          { s.regs with
            idx := 0
            q1 := Bank.const 0
            q2 := Bank.const 0
            dec := (s.regs.verdictAfter u).1
            mailbox := if (s.regs.verdictAfter u).2 ≠ 0 then (s.regs.verdictAfter u).2 else s.regs.mailbox
            energy := if s.regs.dbgRemain ≠ 0 then s.regs.energiesAfter u else s.regs.energy
            dbgRemain := if s.regs.dbgRemain ≠ 0 then s.regs.dbgRemain - 1 else 0 }
        out :=
          { s.out with
            pubValid := (s.regs.verdictAfter u).2 != 0
            pubCode := (s.regs.verdictAfter u).2
            energyValid := s.regs.dbgRemain != 0 } } := by
  rw [blockComplete_eq, bankEnergies_q1After, blockVerdict_energiesAfter]
  by_cases hdump : s.regs.dbgRemain = 0#8 <;> simp [hdump]

/-- EO-6 to EO-12 of 95_test_vectors.md, evaluated tone by tone. -/
theorem bankEnergies_blockB5 :
    bankEnergies Config.params ⟨-284, 1835, 58, -4, 198, 919, -259⟩ ⟨-654, 3129, 158, 20, -89, 2258, -261⟩ =
      ⟨5, 114, 0, 0, 2, 118, 2⟩ :=
  Bank.ext_get fun t => by
    rw [bankEnergies_get]
    cases t <;> decide

/-- Settles O34: the last sample's block completion register for register, and block B5 evaluated. -/
theorem lastSampleCompletesTheBlock : Obligations.LastSampleCompletesTheBlock := by
  refine ⟨fun u s he hi => ?completes, bankEnergies_blockB5, by decide⟩
  case completes => rw [exec_sample, acceptSample_last_of_block u he hi, blockComplete_q1After]

end Sys2Proof.Machine
end

section
/-! PROOFS. The sample path over a whole step (40_pipeline.md R111, R114): the events of a step are a lifecycle write alone, or
the sample with at most one command beside it that leaves the sample path's registers as they are. -/

namespace Sys2Proof.Machine

/-! ### The step and its events -/

@[simp] theorem State.begun_regs (s : State) : s.begun.regs = s.regs := rfl

theorem step_eq (s : State) :
    step s =
      .next (if s.ports.rst then hardwareReset s.begun else (stepEvents s.ports).foldl Event.apply s.begun) :=
  portStep_eq s.ports s.advance

theorem StepInput.isLifecycle_iff (inp : StepInput) :
    inp.isLifecycle = true ↔ inp.cmdValid = true ∧ ∃ d, decodeCmd inp.cmd = .op (.wrCtrl d) := by
  rw [StepInput.isLifecycle, Bool.and_eq_true]
  refine and_congr_right fun _ => ?_
  split <;> simp_all

/-- A lifecycle write drops the sample of its step (R111). -/
theorem stepEvents_of_wrCtrl {inp : StepInput} {d : Byte} (hv : inp.cmdValid = true)
    (hd : decodeCmd inp.cmd = .op (.wrCtrl d)) : stepEvents inp = [.op (.wrCtrl d)] := by
  simp [stepEvents, hv, hd, commandEvents]

/-- A command or an illegal word, but no lifecycle write: what may stand beside a sample. -/
def Event.isBesideSample : Event → Bool
  | .op (.wrCtrl _) => false
  | .op (.sample _) => false
  | _ => true

/-- SAMPLE is on no command word: it has a port of its own (R86). -/
theorem decodeCmd_ne_sample (w : CmdWord) (u : Byte) : decodeCmd w ≠ .op (.sample u) := by
  intro h
  obtain ⟨w', henc, -⟩ := encode_and_opMask_of_decodeCmd h
  cases henc

/-- Without a lifecycle write the step performs its sample, with at most a command before or after it. -/
theorem stepEvents_around_sample {inp : StepInput} (h : inp.isLifecycle = false) :
    ∃ pre post, stepEvents inp = pre ++ sampleEvents inp ++ post ∧
      (∀ e ∈ pre, e.isBesideSample = true) ∧ ∀ e ∈ post, e.isBesideSample = true := by
  cases hv : inp.cmdValid with
  | false => exact ⟨[], [], by simp [stepEvents, hv], by simp, by simp⟩
  | true =>
    cases hd : decodeCmd inp.cmd with
    | illegal c =>
      exact ⟨[.illegal c], [], by simp [stepEvents, hv, hd, commandEvents], by simp [Event.isBesideSample], by simp⟩
    | op i =>
      cases hi : i with
      | wrCtrl d => exact absurd ((StepInput.isLifecycle_iff inp).mpr ⟨hv, d, hd.trans (congrArg _ hi)⟩) (by simp [h])
      | sample u => exact absurd (hd.trans (congrArg _ hi)) (decodeCmd_ne_sample _ u)
      | wrDbgcnt d =>
        exact ⟨[], [.op (.wrDbgcnt d)], by simp [stepEvents, hv, hd, hi, commandEvents], by simp,
          by simp [Event.isBesideSample]⟩
      | _ =>
        exact ⟨[.op i], [], by simp [stepEvents, hv, hd, hi, commandEvents], by simp [hi, Event.isBesideSample], by simp⟩

/-! ### The registers of the sample path -/

/-- The registers that the sample path reads, the others at their reset values. -/
def Regs.samplePath (r : Regs) : Regs :=
  { Regs.reset with enabled := r.enabled, idx := r.idx, q1 := r.q1, q2 := r.q2, dec := r.dec }

theorem Event.apply_samplePath {e : Event} (he : e.isBesideSample = true) (s : State) :
    (e.apply s).regs.samplePath = s.regs.samplePath := by
  cases e with
  | illegal c => simp [Event.apply, raiseIllegal_eq, Regs.samplePath]
  | op i =>
    cases i with
    | wrCtrl d => simp [Event.isBesideSample] at he
    | sample u => simp [Event.isBesideSample] at he
    | _ => rfl

theorem foldl_apply_samplePath {es : List Event} (hes : ∀ e ∈ es, e.isBesideSample = true) (s : State) :
    (es.foldl Event.apply s).regs.samplePath = s.regs.samplePath := by
  induction es generalizing s with
  | nil => rfl
  | cons e es ih =>
    obtain ⟨he, hes⟩ := List.forall_mem_cons.mp hes
    rw [List.foldl_cons, ih hes, Event.apply_samplePath he]

/-! ### DecoderState (R114) -/

/-- DecoderState after the sample port's operation of a step that does not drop it. -/
def Regs.decAfter (r : Regs) (inp : StepInput) : DecoderState :=
  if inp.sampleValid && r.enabled && r.idx == 99 then (r.verdictAfter inp.sampleU8).1 else r.dec

theorem Regs.dec_congr {r r' : Regs} (h : r.samplePath = r'.samplePath) : r.dec = r'.dec :=
  (congrArg Regs.dec h :)

theorem Regs.decAfter_congr {r r' : Regs} (h : r.samplePath = r'.samplePath) (inp : StepInput) :
    r.decAfter inp = r'.decAfter inp :=
  (congrArg (Regs.decAfter · inp) h :)

theorem acceptSample_dec (u : Byte) (s : State) :
    (acceptSample Config.params u s).regs.dec =
      if s.regs.enabled && s.regs.idx == 99 then (s.regs.verdictAfter u).1 else s.regs.dec := by
  cases he : s.regs.enabled with
  | false => simp [acceptSample_of_disabled _ u he]
  | true =>
    by_cases hi : s.regs.idx = 99
    · rw [acceptSample_last_of_block u he hi, blockComplete_q1After, beq_iff_eq.mpr hi]
      rfl
    · rw [acceptSample_inside_block u he hi, beq_eq_false_iff_ne.mpr hi]
      rfl

theorem foldl_sampleEvents_dec (inp : StepInput) (s : State) :
    ((sampleEvents inp).foldl Event.apply s).regs.dec = s.regs.decAfter inp := by
  cases hv : inp.sampleValid with
  | false => simp [sampleEvents, Regs.decAfter, hv]
  | true => simp [sampleEvents, Regs.decAfter, hv, Event.apply, execState, acceptSample_dec]

/-- Without a lifecycle write only the sample moves DecoderState: the command beside it leaves what the sample reads. -/
theorem foldl_stepEvents_dec {inp : StepInput} (h : inp.isLifecycle = false) (s : State) :
    ((stepEvents inp).foldl Event.apply s).regs.dec = s.regs.decAfter inp := by
  obtain ⟨pre, post, hevents, hpre, hpost⟩ := stepEvents_around_sample h
  rw [hevents, List.foldl_append, List.foldl_append]
  calc (post.foldl Event.apply ((sampleEvents inp).foldl Event.apply (pre.foldl Event.apply s))).regs.dec
    _ = ((sampleEvents inp).foldl Event.apply (pre.foldl Event.apply s)).regs.dec :=
      Regs.dec_congr (foldl_apply_samplePath hpost _)
    _ = (pre.foldl Event.apply s).regs.decAfter inp := foldl_sampleEvents_dec inp _
    _ = s.regs.decAfter inp := Regs.decAfter_congr (foldl_apply_samplePath hpre s) inp

/-- A lifecycle write clears DecoderState, INIT and DISABLE alike (R218, R219). -/
theorem foldl_stepEvents_dec_of_lifecycle {inp : StepInput} (h : inp.isLifecycle = true) (s : State) :
    ((stepEvents inp).foldl Event.apply s).regs.dec = ⟨0, 0, 0⟩ := by
  obtain ⟨hv, d, hd⟩ := (StepInput.isLifecycle_iff inp).mp h
  rw [stepEvents_of_wrCtrl hv hd]
  rfl

/-- Settles O52: a reset and a lifecycle write clear DecoderState; otherwise it is the sample's alone. -/
theorem decoderStateChangesOncePerBlock : Obligations.DecoderStateChangesOncePerBlock := by
  intro s t h
  rw [step_eq, Host.Outcome.next.injEq] at h
  subst h
  cases hrst : s.ports.rst with
  | true => rfl
  | false =>
    cases hlife : s.ports.isLifecycle with
    | true => simp [foldl_stepEvents_dec_of_lifecycle hlife]
    | false => simp [foldl_stepEvents_dec hlife, State.completesBlock, hrst, hlife, Regs.decAfter]

/-! ### SAMPLE in its step (R111) -/

theorem step_of_wrCtrl {s : State} {d : Byte} (hrst : s.ports.rst = false) (hv : s.ports.cmdValid = true)
    (hd : decodeCmd s.ports.cmd = .op (.wrCtrl d)) : step s = exec (.wrCtrl d) s.begun := by
  rw [step_eq, hrst, stepEvents_of_wrCtrl hv hd, exec_eq]
  rfl

theorem step_of_rst {s : State} (hrst : s.ports.rst = true) : step s = .next { s.begun with regs := Regs.reset } := by
  rw [step_eq, hrst]
  rfl

/-- Settles O33: SAMPLE's three cases, and the two steps that do not hear it. -/
theorem sampleAdvancesOrCompletes : Obligations.SampleAdvancesOrCompletes := by
  refine ⟨fun u s he => ?disabled, fun u s he hi => ?inside, fun u s he hi => ?last,
    fun s inp rest d hin hrst hv hd => ?lifecycle, fun s inp rest hin hrst => ?reset,
    fun s t he hi ht => ?worked, by decide, by decide⟩
  case disabled => rw [exec_sample, acceptSample_of_disabled _ u he]
  case inside =>
    rw [exec_sample, acceptSample_inside_block u he hi]
    rfl
  case last => rw [exec_sample, acceptSample_last_of_block u he hi]
  case lifecycle =>
    obtain rfl : s.ports = inp := State.ports_cons hin
    exact step_of_wrCtrl hrst hv hd
  case reset =>
    obtain rfl : s.ports = inp := State.ports_cons hin
    exact step_of_rst hrst
  case worked =>
    have hne : s.regs.idx ≠ 99 := by rw [hi]; decide
    have hcenter : center Config.params 200 = 72 := by decide
    rw [exec_sample, acceptSample_inside_block 200 he hne, Host.Outcome.next.injEq] at ht
    subst ht
    exact ⟨by simp [hi], fun a => by simp only [State.setRegs_regs, Regs.setFilters_q1, Regs.q1After, Bank.get_ofFn, hcenter]⟩

end Sys2Proof.Machine
end

section
/-! PROOFS. The twist tests of the classifier: which one applies, and what it rejects (42_digit_classifier.md R158-R160). -/

namespace Sys2Proof.Machine

/-- A column stronger than the row is held to the forward test (R158, R159). -/
theorem twistRejects_iff_of_row_lt_column (p : Params) {cs rs : Nat} (h : cs > rs) :
    twistRejects p cs rs = true ↔ cs * p.fwdTwist > rs * p.twistDen := by
  rw [twistRejects, if_pos h, forwardTwistRejects, decide_eq_true_iff]

/-- A row at least as strong as the column is held to the reverse test (R158, R160). -/
theorem twistRejects_iff_of_column_le_row (p : Params) {cs rs : Nat} (h : rs ≥ cs) :
    twistRejects p cs rs = true ↔ rs * p.revTwist > cs * p.twistDen := by
  rw [twistRejects, if_neg (Nat.not_lt.mpr h), reverseTwistRejects, decide_eq_true_iff]

/-- A block gets a code only by passing every test, the twist test of its winners among them. -/
theorem classify_eq_zero_of_twistRejects (p : Params) (e : Bank Byte)
    (h : twistRejects p (columnWinner e).1 (rowWinner e).1 = true) : classify p e = 0 := by
  obtain hzero | ⟨-, -, -, -, hpass, -⟩ := classify_cases p e
  · exact hzero
  · rw [h] at hpass
    contradiction

/-- Settles O16: the order of the two winners picks the test, each test is its strict inequality, and a code needs the
winners to pass it. -/
theorem twistTestsAreStrict : Obligations.TwistTestsAreStrict := by
  refine ⟨fun p _ _ => twistRejects_iff_of_row_lt_column p, fun p _ _ => twistRejects_iff_of_column_le_row p,
    classify_eq_zero_of_twistRejects, ?defaults⟩
  case defaults => decide

end Sys2Proof.Machine
end

section
/-! PROOFS. One block of the debouncer, with a tone and without (43_duration_debouncer.md R181-R186). -/

namespace Sys2Proof.Machine

/-- Settles O18: a code other than 0 leaves two of the debouncer's four cases, and the two premises exclude each other. -/
theorem toneBlockContinuesOrRestarts : Obligations.ToneBlockContinuesOrRestarts := by
  intro p d n hn
  obtain ⟨-, hsame, hdropout, hcontinue⟩ | ⟨-, hnew, hrestart⟩ | ⟨hzero, -⟩ | ⟨hzero, -⟩ := debounce_cases p d n
  · refine ⟨fun _ => hcontinue, fun hbreak => ?_⟩
    exact absurd hbreak (not_or.mpr ⟨not_not.mpr hsame, Nat.not_lt.mpr hdropout⟩)
  · exact ⟨fun hrun => absurd hrun hnew, fun _ => hrestart⟩
  · exact absurd hzero hn
  · exact absurd hzero hn

/-- Settles O19: the new count is the saturating increment; whether it ends a candidate picks the debouncer's case, and
MIN_TONE then decides the published code. -/
theorem silenceBlockConfirmsOrWaits : Obligations.SilenceBlockConfirmsOrWaits := by
  intro p d hcount
  refine ⟨satInc p d.silenceCount, satInc_toNat hcount _, ?_⟩
  obtain ⟨hne, -⟩ | ⟨hne, -⟩ | ⟨-, hdigit, hsilence, hends⟩ | ⟨-, hwaits, hcounts⟩ := debounce_cases p d 0
  · exact absurd rfl hne
  · exact absurd rfl hne
  · refine ⟨fun _ _ htone => ?confirmed, fun _ _ htone => ?tooShort, fun hwaits => ?noCandidate⟩
    case confirmed => rw [hends, if_pos htone]
    case tooShort => rw [hends, if_neg (Nat.not_le.mpr htone)]
    case noCandidate => exact absurd hwaits (not_or.mpr ⟨hdigit, Nat.not_lt.mpr hsilence⟩)
  · refine ⟨fun hdigit hsilence _ => ?_, fun hdigit hsilence _ => ?_, fun _ => hcounts⟩ <;>
      exact absurd hwaits (not_or.mpr ⟨hdigit, Nat.not_lt.mpr hsilence⟩)

end Sys2Proof.Machine
end

section
/-! PROOFS. The mailbox (44_mailbox.md): the take of RD DIGIT (R202, R221), the pulses of a completing block (R227, R228), and
what a whole step leaves in the slot (R204). -/

namespace Sys2Proof.Machine

/-! ### The command port around the take -/

/-- Every word of a register's read, whatever its `DATA`, is that read (R81). -/
theorem decodeCmd_assembleCmd_read (r : RegName) (d : Byte) : decodeCmd (assembleCmd false r d) = .op (readOp r) := by
  rw [decodeCmd_eq_commandOp (cmdRsv_assemble _ _ _) (cmdAddr_assemble _ _ _), cmdW_assemble]
  rfl

theorem StepInput.isTake_iff (inp : StepInput) :
    inp.isTake = true ↔ inp.cmdValid = true ∧ decodeCmd inp.cmd = .op .rdDigit := by
  rw [StepInput.isTake, Bool.and_eq_true]
  refine and_congr_right fun _ => ?_
  split <;> simp_all

/-- The take is performed before the sample of its step (R204). -/
theorem stepEvents_of_rdDigit {inp : StepInput} (hv : inp.cmdValid = true) (hd : decodeCmd inp.cmd = .op .rdDigit) :
    stepEvents inp = .op .rdDigit :: sampleEvents inp := by
  simp [stepEvents, hv, hd, commandEvents]

/-- Without a lifecycle write a step performs its sample alone, after a command that leaves `DBG_REMAIN` alone, or before a
WR DBGCNT; only the middle case can be a take. -/
theorem stepEvents_cases {inp : StepInput} (h : inp.isLifecycle = false) :
    (inp.isTake = false ∧ stepEvents inp = sampleEvents inp) ∨
      (∃ e : Event, e.isBesideSample = true ∧ (∀ d, e ≠ .op (.wrDbgcnt d)) ∧ inp.isTake = (e == .op .rdDigit) ∧
        stepEvents inp = e :: sampleEvents inp) ∨
      (∃ d, inp.isTake = false ∧ stepEvents inp = sampleEvents inp ++ [.op (.wrDbgcnt d)]) := by
  cases hv : inp.cmdValid with
  | false => exact .inl ⟨by simp [StepInput.isTake, hv], by simp [stepEvents, hv]⟩
  | true =>
    cases hd : decodeCmd inp.cmd with
    | illegal c =>
      exact .inr (.inl ⟨.illegal c, rfl, nofun, by simp [StepInput.isTake, hd], by simp [stepEvents, hv, hd, commandEvents]⟩)
    | op i =>
      cases hi : i with
      | wrCtrl d => exact absurd ((StepInput.isLifecycle_iff inp).mpr ⟨hv, d, hd.trans (congrArg _ hi)⟩) (by simp [h])
      | sample u => exact absurd (hd.trans (congrArg _ hi)) (decodeCmd_ne_sample _ u)
      | wrDbgcnt d =>
        exact .inr (.inr ⟨d, by simp [StepInput.isTake, hd, hi], by simp [stepEvents, hv, hd, hi, commandEvents]⟩)
      | _ =>
        exact .inr (.inl ⟨.op i, by simp [hi, Event.isBesideSample], by simp [hi],
          by simp [StepInput.isTake, hv, hd, hi], by simp [stepEvents, hv, hd, hi, commandEvents]⟩)

/-! ### The take (R202, R221) -/

theorem zextCode_eq_append (c : Code) : zextCode c = 0#4 ++ c := by
  decide +revert

theorem exec_rdDigit (s : State) :
    exec .rdDigit s =
      .next
        { s with
          regs := { s.regs with mailbox := 0 }
          out := { s.out with rdata := 0#4 ++ s.regs.mailbox } } := by
  rw [← zextCode_eq_append]
  rfl

/-- The state of a step whose take read `m`: `rdata` shows `m`, and the slot holds what the step published or nothing. -/
def State.withTake (t : State) (m : Code) : State :=
  { t with
    regs := { t.regs with mailbox := if t.out.pubValid then t.out.pubCode else 0 }
    out := { t.out with rdata := 0#4 ++ m } }

theorem execState_rdDigit {s : State} (h : s.out.pubValid = false) : execState .rdDigit s = s.withTake s.regs.mailbox := by
  have hexec := exec_rdDigit s
  rw [exec_eq, Host.Outcome.next.injEq] at hexec
  rw [hexec, State.withTake, h]
  rfl

/-- A sample runs alike before and after a take: it reads neither the slot nor `rdata`, and a publish overwrites the slot. -/
theorem acceptSample_withTake (u : Byte) (m : Code) {s : State} (h : s.out.pubValid = false) :
    acceptSample Config.params u (s.withTake m) = (acceptSample Config.params u s).withTake m := by
  cases he : s.regs.enabled with
  | false => rw [acceptSample_of_disabled _ u he, acceptSample_of_disabled (s := s.withTake m) _ u he]
  | true =>
    by_cases hi : s.regs.idx = 99
    · rw [acceptSample_last_of_block u he hi, acceptSample_last_of_block (s := s.withTake m) u he hi,
        blockComplete_q1After, blockComplete_q1After]
      simp [State.withTake, h, Regs.verdictAfter, Regs.energiesAfter, Regs.q1After]
    · rw [acceptSample_inside_block u he hi, acceptSample_inside_block (s := s.withTake m) u he hi]
      rfl

theorem foldl_sampleEvents_withTake (inp : StepInput) (m : Code) {s : State} (h : s.out.pubValid = false) :
    (sampleEvents inp).foldl Event.apply (s.withTake m) = ((sampleEvents inp).foldl Event.apply s).withTake m := by
  cases hv : inp.sampleValid with
  | false => simp [sampleEvents, hv]
  | true => simp [sampleEvents, hv, Event.apply, execState, acceptSample_withTake _ m h]

/-- Without its command a step is its sample alone. -/
theorem step_withoutCommand {s : State} (hrst : s.ports.rst = false) :
    step s.withoutCommand = .next ((sampleEvents s.ports).foldl Event.apply s.begun) := by
  rw [step_eq]
  cases hin : s.inputs with
  | nil => simp [State.withoutCommand, State.ports, hin, stepEvents, sampleEvents]
  | cons inp rest =>
    rw [State.ports_cons hin] at hrst ⊢
    simp [State.withoutCommand, State.ports, State.begun, hin, hrst, stepEvents, sampleEvents]

/-- A take's step is the command-free step with the take put in. -/
theorem step_of_rdDigit {s t : State} (hrst : s.ports.rst = false) (hv : s.ports.cmdValid = true)
    (hd : decodeCmd s.ports.cmd = .op .rdDigit) (ht : step s.withoutCommand = .next t) :
    step s = .next (t.withTake s.regs.mailbox) := by
  rw [step_withoutCommand hrst, Host.Outcome.next.injEq] at ht
  have htake : Event.apply s.begun (.op .rdDigit) = s.begun.withTake s.regs.mailbox := execState_rdDigit rfl
  rw [step_eq, hrst, stepEvents_of_rdDigit hv hd, List.foldl_cons, htake, foldl_sampleEvents_withTake _ _ rfl, ht]
  rfl

/-- Settles O26: the take alone, in its step, twice, while disabled, and on the spec's example. -/
theorem rdDigitTakesBeforeAPublish : Obligations.RdDigitTakesBeforeAPublish := by
  refine ⟨decodeCmd_assembleCmd_read .digit, exec_rdDigit, fun s inp rest t hin hrst hv hd ht => ?inStep,
    fun s t u ht hu => ?twice, fun s t hinv hdis ht => ?disabled, fun s t hslot ht => ?worked⟩
  case inStep =>
    obtain rfl : s.ports = inp := State.ports_cons hin
    exact step_of_rdDigit hrst hv hd ht
  case twice =>
    rw [exec_rdDigit, Host.Outcome.next.injEq] at ht hu
    subst ht hu
    exact ⟨by simp, rfl⟩
  case disabled =>
    obtain ⟨-, -, -, -, hempty⟩ := hinv.disabled_quiet hdis
    rw [exec_rdDigit, hempty, Host.Outcome.next.injEq] at ht
    subst ht
    rfl
  case worked =>
    rw [exec_rdDigit, hslot, Host.Outcome.next.injEq] at ht
    subst ht
    exact ⟨rfl, rfl⟩

/-! ### The sample's pulses and the slot (R201, R227, R228) -/

/-- Whether the sample port's operation of a step that does not drop it completes a block (R111). -/
def Regs.completes (r : Regs) (inp : StepInput) : Bool := inp.sampleValid && r.enabled && r.idx == 99

/-- The code that this sample publishes, 0 for none. -/
def Regs.pubAfter (r : Regs) (inp : StepInput) : Code :=
  if r.completes inp then (r.verdictAfter inp.sampleU8).2 else 0

/-- The outputs with the pulses that this sample raises. -/
def Regs.pulse (r : Regs) (inp : StepInput) (o : Outputs) : Outputs :=
  if r.completes inp then
    { o with pubValid := r.pubAfter inp != 0, pubCode := r.pubAfter inp, energyValid := r.dbgRemain != 0 }
  else o

theorem Regs.pubAfter_congr {r r' : Regs} (h : r.samplePath = r'.samplePath) (inp : StepInput) :
    r.pubAfter inp = r'.pubAfter inp :=
  (congrArg (Regs.pubAfter · inp) h :)

theorem Regs.pulse_congr {r r' : Regs} (hpath : r.samplePath = r'.samplePath) (hdump : r.dbgRemain = r'.dbgRemain)
    (inp : StepInput) (o : Outputs) : r.pulse inp o = r'.pulse inp o := by
  have hcompletes : r.completes inp = r'.completes inp := (congrArg (Regs.completes · inp) hpath :)
  simp only [Regs.pulse, hcompletes, Regs.pubAfter_congr hpath, hdump]

theorem Regs.pulse_rdata (r : Regs) (inp : StepInput) (o : Outputs) (v : Byte) :
    r.pulse inp { o with rdata := v } = { r.pulse inp o with rdata := v } := by
  unfold Regs.pulse
  split <;> rfl

/-- The sample completes the block, or it raises no pulse and leaves the slot. -/
theorem foldl_sampleEvents_cases (inp : StepInput) (s : State) :
    (s.regs.completes inp = true ∧
        (sampleEvents inp).foldl Event.apply s =
          blockComplete Config.params (s.regs.q1After inp.sampleU8) s.regs.q1 s) ∨
      (s.regs.completes inp = false ∧ ((sampleEvents inp).foldl Event.apply s).out = s.out ∧
        ((sampleEvents inp).foldl Event.apply s).regs.mailbox = s.regs.mailbox) := by
  cases hv : inp.sampleValid with
  | false => exact .inr ⟨by simp [Regs.completes, hv], by simp [sampleEvents, hv], by simp [sampleEvents, hv]⟩
  | true =>
    have hevents : (sampleEvents inp).foldl Event.apply s = acceptSample Config.params inp.sampleU8 s := by
      simp [sampleEvents, hv, Event.apply, execState]
    rw [hevents]
    cases he : s.regs.enabled with
    | false =>
      rw [acceptSample_of_disabled _ _ he]
      exact .inr ⟨by simp [Regs.completes, he], rfl, rfl⟩
    | true =>
      by_cases hi : s.regs.idx = 99
      · exact .inl ⟨by simp [Regs.completes, hv, he, hi], acceptSample_last_of_block _ he hi⟩
      · rw [acceptSample_inside_block _ he hi]
        exact .inr ⟨by simpa [Regs.completes, hv, he] using hi, rfl, rfl⟩

theorem foldl_sampleEvents_out (inp : StepInput) (s : State) :
    ((sampleEvents inp).foldl Event.apply s).out = s.regs.pulse inp s.out := by
  obtain ⟨hc, hevents⟩ | ⟨hc, hout, -⟩ := foldl_sampleEvents_cases inp s
  · rw [hevents, blockComplete_q1After]
    simp [Regs.pulse, Regs.pubAfter, hc]
  · simp [hout, Regs.pulse, hc]

theorem foldl_sampleEvents_mailbox (inp : StepInput) (s : State) :
    ((sampleEvents inp).foldl Event.apply s).regs.mailbox =
      if s.regs.pubAfter inp ≠ 0 then s.regs.pubAfter inp else s.regs.mailbox := by
  obtain ⟨hc, hevents⟩ | ⟨hc, -, hslot⟩ := foldl_sampleEvents_cases inp s
  · rw [hevents, blockComplete_q1After]
    simp [Regs.pubAfter, hc]
  · simp [hslot, Regs.pubAfter, hc]

/-! ### The command beside the sample (R207) -/

/-- A command other than WR DBGCNT writes `rdata`, the slot when it is the take, and neither pulses nor the dump's count. -/
theorem Event.apply_beside_sample {e : Event} (he : e.isBesideSample = true) (hne : ∀ d, e ≠ .op (.wrDbgcnt d)) (s : State) :
    (∃ v, (e.apply s).out = { s.out with rdata := v }) ∧
      (e.apply s).regs.mailbox = (if e == .op .rdDigit then 0 else s.regs.mailbox) ∧
      (e.apply s).regs.dbgRemain = s.regs.dbgRemain := by
  cases e with
  | illegal c => exact ⟨⟨0, rfl⟩, by simp [Event.apply, raiseIllegal_eq], by simp [Event.apply, raiseIllegal_eq]⟩
  | op i =>
    cases i with
    | wrCtrl d => simp [Event.isBesideSample] at he
    | sample u => simp [Event.isBesideSample] at he
    | wrDbgcnt d => exact absurd rfl (hne d)
    | _ => exact ⟨⟨_, rfl⟩, rfl, rfl⟩

/-- The pulses of a step without lifecycle write are its sample's; its command writes `rdata` only. -/
theorem foldl_stepEvents_out {inp : StepInput} (h : inp.isLifecycle = false) (s : State) :
    ∃ v, ((stepEvents inp).foldl Event.apply s).out = { s.regs.pulse inp s.out with rdata := v } := by
  obtain ⟨-, hevents⟩ | ⟨e, he, hne, -, hevents⟩ | ⟨d, -, hevents⟩ := stepEvents_cases h
  · rw [hevents, foldl_sampleEvents_out]
    exact ⟨_, rfl⟩
  · obtain ⟨⟨v, hout⟩, -, hdump⟩ := Event.apply_beside_sample he hne s
    rw [hevents, List.foldl_cons, foldl_sampleEvents_out, Regs.pulse_congr (Event.apply_samplePath he s) hdump, hout,
      Regs.pulse_rdata]
    exact ⟨v, rfl⟩
  · rw [hevents, List.foldl_append, ← foldl_sampleEvents_out]
    exact ⟨0, rfl⟩

/-- The slot after a step without lifecycle write holds the published code, or else what a take left of it. -/
theorem foldl_stepEvents_mailbox {inp : StepInput} (h : inp.isLifecycle = false) (s : State) :
    ((stepEvents inp).foldl Event.apply s).regs.mailbox =
      if s.regs.pubAfter inp ≠ 0 then s.regs.pubAfter inp else if inp.isTake then 0 else s.regs.mailbox := by
  obtain ⟨htake, hevents⟩ | ⟨e, he, hne, htake, hevents⟩ | ⟨d, htake, hevents⟩ := stepEvents_cases h
  · rw [hevents, foldl_sampleEvents_mailbox, htake]
    rfl
  · obtain ⟨-, hslot, -⟩ := Event.apply_beside_sample he hne s
    rw [hevents, List.foldl_cons, foldl_sampleEvents_mailbox, Regs.pubAfter_congr (Event.apply_samplePath he s), hslot, htake]
  · rw [hevents, List.foldl_append, List.foldl_cons, List.foldl_nil, htake]
    exact foldl_sampleEvents_mailbox inp s

/-! ### The whole step (R203, R204, R206, R227, R228) -/

/-- The code that a step publishes, 0 for none. -/
def State.published (s : State) : Code := if s.completesBlock then (s.regs.verdictAfter s.ports.sampleU8).2 else 0

/-- A step that neither a reset nor a lifecycle write overrides hears its sample. -/
theorem State.completesBlock_of_heard {s : State} (hrst : s.ports.rst = false) (hlife : s.ports.isLifecycle = false) :
    s.completesBlock = s.regs.completes s.ports := by
  simp [State.completesBlock, Regs.completes, hrst, hlife]

theorem State.published_of_heard {s : State} (hrst : s.ports.rst = false) (hlife : s.ports.isLifecycle = false) :
    s.published = s.regs.pubAfter s.ports := by
  rw [State.published, State.completesBlock_of_heard hrst hlife, Regs.pubAfter]

theorem State.completesBlock_of_overridden {s : State} (h : (s.ports.rst || s.ports.isLifecycle) = true) :
    s.completesBlock = false := by
  simp only [Bool.or_eq_true] at h
  obtain hrst | hlife := h
  · simp [State.completesBlock, hrst]
  · simp [State.completesBlock, hlife]

/-- A reset and a lifecycle write empty the slot and raise no pulse (R203, R281). -/
theorem step_of_overridden {s t : State} (h : step s = .next t) (hover : (s.ports.rst || s.ports.isLifecycle) = true) :
    t.regs.mailbox = 0 ∧ t.out = s.begun.out := by
  cases hrst : s.ports.rst with
  | true =>
    rw [step_of_rst hrst, Host.Outcome.next.injEq] at h
    subst h
    exact ⟨rfl, rfl⟩
  | false =>
    rw [hrst, Bool.false_or] at hover
    obtain ⟨hv, d, hd⟩ := (StepInput.isLifecycle_iff _).mp hover
    rw [step_of_wrCtrl hrst hv hd, exec_eq, Host.Outcome.next.injEq] at h
    subst h
    exact ⟨rfl, rfl⟩

theorem step_of_heard {s t : State} (h : step s = .next t) (hrst : s.ports.rst = false) :
    t = (stepEvents s.ports).foldl Event.apply s.begun := by
  rw [step_eq, hrst, Host.Outcome.next.injEq] at h
  exact h.symm

/-- The outputs of every step but `rdata`. -/
theorem step_out {s t : State} (h : step s = .next t) :
    t.out =
      { rdata := t.out.rdata, digitPending := s.regs.mailbox != 0, pubValid := s.published != 0, pubCode := s.published,
        energyValid := s.completesBlock && s.regs.dbgRemain != 0 } := by
  cases hover : s.ports.rst || s.ports.isLifecycle with
  | true =>
    obtain ⟨-, hout⟩ := step_of_overridden h hover
    simp [hout, State.published, State.completesBlock_of_overridden hover, State.begun]
  | false =>
    obtain ⟨hrst, hlife⟩ := Bool.or_eq_false_iff.mp hover
    obtain ⟨v, hout⟩ := foldl_stepEvents_out hlife s.begun
    rw [step_of_heard h hrst, hout, State.published_of_heard hrst hlife, State.completesBlock_of_heard hrst hlife]
    cases hc : s.regs.completes s.ports <;> simp [Regs.pulse, Regs.pubAfter, hc, State.begun]

theorem step_mailbox {s t : State} (h : step s = .next t) :
    t.regs.mailbox =
      if s.ports.rst || s.ports.isLifecycle then 0
      else if s.published ≠ 0 then s.published
      else if s.ports.isTake then 0
      else s.regs.mailbox := by
  cases hover : s.ports.rst || s.ports.isLifecycle with
  | true =>
    obtain ⟨hslot, -⟩ := step_of_overridden h hover
    exact hslot
  | false =>
    obtain ⟨hrst, hlife⟩ := Bool.or_eq_false_iff.mp hover
    rw [step_of_heard h hrst, foldl_stepEvents_mailbox hlife, State.published_of_heard hrst hlife]
    rfl

/-- A take reads the slot as it was before the step (R202). -/
theorem step_rdata_of_isTake {s t : State} (h : step s = .next t) (hrst : s.ports.rst = false)
    (htake : s.ports.isTake = true) : t.out.rdata = 0#4 ++ s.regs.mailbox := by
  obtain ⟨hv, hd⟩ := (StepInput.isTake_iff _).mp htake
  rw [step_of_rdDigit hrst hv hd (step_withoutCommand hrst), Host.Outcome.next.injEq] at h
  subst h
  rfl

/-- STATUS.PENDING is bit 1 of the register (R29, R220). -/
theorem statusByte_pending (r : Regs) : (statusByte r).getLsbD 1 = (r.mailbox != 0) := by
  simp only [statusByte, BitVec.getLsbD_append]
  simp [flagPending]

/-- Settles O53: the outputs and the slot of every step, the take's datum, and STATUS.PENDING. -/
theorem mailboxChangesOnlyByPublishTakeAndReset : Obligations.MailboxChangesOnlyByPublishTakeAndReset := by
  refine ⟨fun s t h => ?step, fun s t h => ?status⟩
  case step =>
    have hout := step_out h
    have hvalid : t.out.pubValid = (s.published != 0) := by rw [hout]
    have hcode : t.out.pubCode = s.published := by rw [hout]
    refine ⟨?slot, step_rdata_of_isTake h, hcode, by rw [hvalid, hcode], by rw [hout], by rw [hout]⟩
    case slot =>
      rw [step_mailbox h, hvalid, hcode]
      simp only [bne_iff_ne]
  case status =>
    rw [exec_eq, Host.Outcome.next.injEq] at h
    subst h
    exact statusByte_pending s.regs

end Sys2Proof.Machine
end

section
/-! PROOFS. The machine's step is R230's (45_host_interface.md section 4): the sample port's operation is R230 from
`let pub = 0` on, and every command's meaning is its arm of `case op of`. -/

namespace Sys2Proof.Machine

/-! ### The sample part -/

/-- R230 from `let pub = 0` on, in the statements' terms. -/
theorem rule230Sample_eq (S : Regs) (inp : StepInput) (c : CommandPart) :
    rule230Sample Config.params S inp c =
      ({ c.regs with
          idx := if S.completes inp then 0 else if inp.sampleValid && S.enabled then S.idx + 1 else c.regs.idx
          q1 :=
            if S.completes inp then Bank.const 0
            else if inp.sampleValid && S.enabled then S.q1After inp.sampleU8 else c.regs.q1
          q2 := if S.completes inp then Bank.const 0 else if inp.sampleValid && S.enabled then S.q1 else c.regs.q2
          dec := if S.completes inp then (S.verdictAfter inp.sampleU8).1 else c.regs.dec
          mailbox := if S.pubAfter inp ≠ 0 then S.pubAfter inp else if c.take then 0 else S.mailbox
          energy := if S.completes inp && S.dbgRemain != 0 then S.energiesAfter inp.sampleU8 else c.regs.energy
          dbgRemain := c.dbgWrite.getD (if S.completes inp && S.dbgRemain != 0 then S.dbgRemain - 1 else S.dbgRemain) },
        { c.out with
          pubValid := S.pubAfter inp != 0
          pubCode := S.pubAfter inp
          energyValid := S.completes inp && S.dbgRemain != 0 }) := by
  have hlast : (S.idx == 99) = (S.idx.toNat == Config.params.nBlock - 1) := by
    rw [Bool.eq_iff_iff, beq_iff_eq, beq_iff_eq, idx_last_iff]
  simp only [Regs.pubAfter, Regs.completes, hlast, ← blockVerdict_energiesAfter, ← bankEnergies_q1After, ← nextQ1_center]
  rw [← nextQ2_eq_q1 Config.params S (center Config.params inp.sampleU8)]
  cases hw : c.dbgWrite <;> simp only [rule230Sample, hw] <;> rfl

/-- A sample that completes no block: one filter step if it is accepted, and no pulse. -/
theorem rule230Sample_of_not_completes {S : Regs} {inp : StepInput} (c : CommandPart) (h : S.completes inp = false) :
    rule230Sample Config.params S inp c =
      ({ c.regs with
          idx := if inp.sampleValid && S.enabled then S.idx + 1 else c.regs.idx
          q1 := if inp.sampleValid && S.enabled then S.q1After inp.sampleU8 else c.regs.q1
          q2 := if inp.sampleValid && S.enabled then S.q1 else c.regs.q2
          mailbox := if c.take then 0 else S.mailbox
          dbgRemain := c.dbgWrite.getD S.dbgRemain },
        { c.out with pubValid := false, pubCode := 0, energyValid := false }) := by
  simp [rule230Sample_eq, Regs.pubAfter, h]

/-- What R230's sample part finds when the state `s` is all there is: no take and no write of `DBG_REMAIN` is still to be
accounted for. -/
def State.commandPart (s : State) : CommandPart := ⟨s.regs, s.out, false, none, false⟩

/-- The state with the registers and outputs that R230 computes. -/
def State.answer (s : State) (a : Regs × Outputs) : State := { regs := a.1, out := a.2, inputs := s.inputs }

/-- No pulse has been raised in the step so far. -/
def Outputs.NoPulse (o : Outputs) : Prop := o = { o with pubValid := false, pubCode := 0, energyValid := false }

/-- An ignored sample leaves what the command part left. -/
theorem eq_answer_rule230_of_ignored {inp : StepInput} {s : State} (hquiet : s.out.NoPulse)
    (h : (inp.sampleValid && s.regs.enabled) = false) :
    s = s.answer (rule230Sample Config.params s.regs inp s.commandPart) := by
  rw [rule230Sample_of_not_completes _ (by simp [Regs.completes, h]), h]
  exact State.ext_fields rfl hquiet rfl

/-- SAMPLE's meaning, in a step that has raised no pulse yet, is R230 from `let pub = 0` on. -/
theorem acceptSample_rule230 {inp : StepInput} (hv : inp.sampleValid = true) {s : State} (hquiet : s.out.NoPulse) :
    acceptSample Config.params inp.sampleU8 s =
      s.answer (rule230Sample Config.params s.regs inp s.commandPart) := by
  cases he : s.regs.enabled with
  | false =>
    rw [acceptSample_of_disabled _ _ he]
    exact eq_answer_rule230_of_ignored hquiet (by simp [he])
  | true =>
    by_cases hi : s.regs.idx = 99
    · have hc : s.regs.completes inp = true := by simp [Regs.completes, hv, he, hi]
      rw [acceptSample_last_of_block _ he hi, blockComplete_q1After, rule230Sample_eq]
      by_cases hdump : s.regs.dbgRemain = 0#8 <;>
        simp [State.answer, State.commandPart, Regs.pubAfter, hc, hdump]
    · have hc : s.regs.completes inp = false := by simpa [Regs.completes, hv, he] using hi
      rw [acceptSample_inside_block _ he hi, rule230Sample_of_not_completes _ hc, hv, he]
      exact State.ext_fields rfl hquiet rfl

theorem foldl_sampleEvents_rule230 (inp : StepInput) {s : State} (hquiet : s.out.NoPulse) :
    (sampleEvents inp).foldl Event.apply s = s.answer (rule230Sample Config.params s.regs inp s.commandPart) := by
  cases hv : inp.sampleValid with
  | false =>
    rw [sampleEvents, hv]
    exact eq_answer_rule230_of_ignored hquiet (by simp [hv])
  | true =>
    rw [← acceptSample_rule230 hv hquiet, sampleEvents, hv]
    rfl

/-! ### The command part -/

theorem rule230Command_of_illegal {S : Regs} {inp : StepInput} {c : Cause} (hv : inp.cmdValid = true)
    (hd : decodeCmd inp.cmd = .illegal c) :
    rule230Command S inp =
      { regs := { S with errcause := if S.errcause = 0 then c.code else S.errcause }
        out := startOutputs S
        take := false
        dbgWrite := none
        done := false } := by
  simp only [rule230Command, hv, hd]
  by_cases h : S.errcause = 0
  · rw [if_pos h, if_pos h]
    rfl
  · rw [if_neg h, if_neg h]
    rfl

theorem rule230Command_of_wrDbgcnt {S : Regs} {inp : StepInput} {d : Byte} (hv : inp.cmdValid = true)
    (hd : decodeCmd inp.cmd = .op (.wrDbgcnt d)) :
    rule230Command S inp = { regs := S, out := startOutputs S, take := false, dbgWrite := some d, done := false } := by
  simp only [rule230Command, hv, hd]
  rfl

/-- INIT and DISABLE are the two arms of R230's lifecycle write, which returns at once (R217). -/
theorem rule230Command_of_wrCtrl {S : Regs} {inp : StepInput} {d : Byte} (hv : inp.cmdValid = true)
    (hd : decodeCmd inp.cmd = .op (.wrCtrl d)) :
    rule230Command S inp =
      { regs := S.restart (lifecycleBit d), out := startOutputs S, take := false, dbgWrite := none, done := true } := by
  simp only [rule230Command, hv, hd, lifecycleBit]
  cases d.getLsbD 0 <;> rfl

theorem stepEvents_of_illegal {inp : StepInput} {c : Cause} (hv : inp.cmdValid = true)
    (hd : decodeCmd inp.cmd = .illegal c) : stepEvents inp = .illegal c :: sampleEvents inp := by
  simp [stepEvents, hv, hd, commandEvents]

/-- WR DBGCNT is performed after the sample of its step, so that it wins (R224). -/
theorem stepEvents_of_wrDbgcnt {inp : StepInput} {d : Byte} (hv : inp.cmdValid = true)
    (hd : decodeCmd inp.cmd = .op (.wrDbgcnt d)) : stepEvents inp = sampleEvents inp ++ [.op (.wrDbgcnt d)] := by
  simp [stepEvents, hv, hd, commandEvents]

/-- A step without reset runs its command's meaning and its sample's as R230's two parts: a read and an illegal command hand
the sample part the state they leave, WR DBGCNT acts on its result, and WR CTRL returns before it. -/
theorem foldl_stepEvents_rule230 {inp : StepInput} (hrst : inp.rst = false) (s : State) :
    (stepEvents inp).foldl Event.apply s.begun = s.begun.answer (rule230Step Config.params s.regs inp) := by
  have hbegun : s.begun.out.NoPulse := rfl
  simp only [rule230Step, hrst]
  cases hv : inp.cmdValid with
  | false =>
    simp only [stepEvents, rule230Command, hv]
    exact foldl_sampleEvents_rule230 _ hbegun
  | true =>
    cases hd : decodeCmd inp.cmd with
    | illegal c =>
      rw [rule230Command_of_illegal hv hd, stepEvents_of_illegal hv hd, List.foldl_cons, Event.apply, raiseIllegal_eq]
      exact foldl_sampleEvents_rule230 _ rfl
    | op i =>
      cases i with
      | wrCtrl d =>
        rw [rule230Command_of_wrCtrl hv hd, stepEvents_of_wrCtrl hv hd]
        rfl
      | sample u => exact absurd hd (decodeCmd_ne_sample _ u)
      | wrDbgcnt d =>
        rw [rule230Command_of_wrDbgcnt hv hd, stepEvents_of_wrDbgcnt hv hd, List.foldl_append,
          foldl_sampleEvents_rule230 _ hbegun]
        rfl
      | _ =>
        simp only [stepEvents, rule230Command, hv, hd, commandEvents]
        exact foldl_sampleEvents_rule230 _ rfl

/-- Settles O42: the reset step, and the command's and the sample's events, against R230's text. -/
theorem stepIsTheSpecsStepFunction : Obligations.StepIsTheSpecsStepFunction := by
  intro s
  rw [step_eq]
  cases hrst : s.ports.rst with
  | true =>
    simp only [rule230Step, hrst]
    rfl
  | false =>
    rw [if_neg (by simp), foldl_stepEvents_rule230 hrst]
    rfl

end Sys2Proof.Machine
end

section
/-! PROOFS. The commands of 45_host_interface.md R216-R225, each by its words, its meaning and its step. The reads without a
side effect are one argument: a sample neither sees nor writes `rdata`. -/

namespace Sys2Proof.Machine

/-! ### The words and the meanings -/

/-- The state an operation answers is `execState`'s. -/
theorem eq_execState_of_exec {i : Instr} {s t : State} (h : exec i s = .next t) : t = execState i s := by
  rw [exec_eq, Host.Outcome.next.injEq] at h
  exact h.symm

/-- Every word of a register's write is that write, or illegal where the register is read-only (R83). -/
theorem decodeCmd_assembleCmd_write (r : RegName) (d : Byte) : decodeCmd (assembleCmd true r d) = writeOp d r := by
  rw [decodeCmd_eq_commandOp (cmdRsv_assemble _ _ _) (cmdAddr_assemble _ _ _), cmdW_assemble, cmdData_assemble]
  rfl

/-- Every read but the take sets `rdata` and nothing else. -/
theorem execState_readOp {n : RegName} (hn : n ≠ .digit) (s : State) : execState (readOp n) s = readReg n s := by
  cases n with
  | digit => exact absurd rfl hn
  | energy t => cases t <;> rfl
  | _ => rfl

theorem exec_readOp {n : RegName} (hn : n ≠ .digit) (s : State) :
    exec (readOp n) s = .next { s with out := { s.out with rdata := regRead n s.regs } } := by
  rw [exec_eq, execState_readOp hn, readReg_eq]

theorem zextCause_eq_append (c : BitVec 2) : zextCause c = 0#6 ++ c := by
  decide +revert

/-- A lifecycle write's registers are those of R280's INIT and DISABLE columns. -/
theorem exec_wrCtrl (d : Byte) (s : State) :
    exec (.wrCtrl d) s =
      .next
        { s with
          regs :=
            { enabled := d.getLsbD 0, idx := 0, q1 := Bank.const 0, q2 := Bank.const 0, dec := ⟨0, 0, 0⟩, mailbox := 0,
              dbgRemain := s.regs.dbgRemain, energy := s.regs.energy, errcause := s.regs.errcause }
          out := { s.out with rdata := 0 } } :=
  exec_eq (.wrCtrl d) s

/-! ### A read beside a sample -/

/-- A read is performed before the sample of its step, and so is the take (R204). -/
theorem stepEvents_of_readOp {inp : StepInput} {n : RegName} (hv : inp.cmdValid = true)
    (hd : decodeCmd inp.cmd = .op (readOp n)) : stepEvents inp = .op (readOp n) :: sampleEvents inp := by
  rw [stepEvents_eq, hv, hd]
  cases n with
  | energy t => cases t <;> rfl
  | _ => rfl

/-- SAMPLE neither reads nor writes `rdata`. -/
theorem acceptSample_setRdata (p : Params) (u : Byte) (s : State) (v : Byte) :
    acceptSample p u (s.setRdata v) = (acceptSample p u s).setRdata v := by
  unfold acceptSample
  rw [State.setRdata_regs]
  split
  · split <;> rfl
  · rfl

theorem foldl_sampleEvents_setRdata (inp : StepInput) (s : State) (v : Byte) :
    (sampleEvents inp).foldl Event.apply (s.setRdata v) = ((sampleEvents inp).foldl Event.apply s).setRdata v := by
  cases hv : inp.sampleValid with
  | false => simp [sampleEvents, hv]
  | true => simp [sampleEvents, hv, Event.apply, execState, acceptSample_setRdata]

/-- The command port's half of R207 for every read but the take. -/
theorem readsPreStepValue {n : RegName} (hn : n ≠ .digit) : ReadsPreStepValue n (regRead n) := by
  intro s inp rest t hin hrst hv hd ht
  obtain rfl : s.ports = inp := State.ports_cons hin
  rw [step_withoutCommand hrst, Host.Outcome.next.injEq] at ht
  have hread : Event.apply s.begun (.op (readOp n)) = s.begun.setRdata (regRead n s.regs) := execState_readOp hn _
  rw [step_eq, hrst, stepEvents_of_readOp hv hd, List.foldl_cons, hread, foldl_sampleEvents_setRdata, ht]
  rfl

/-! ### The reads (R216, R220, R222, R223) -/

/-- Settles O24: the words, the meaning, the read beside a sample, and R216's example after INIT. -/
theorem rdCtrlReadsEnabled : Obligations.RdCtrlReadsEnabled := by
  refine ⟨decodeCmd_assembleCmd_read .ctrl, exec_readOp (n := .ctrl) nofun, readsPreStepValue nofun,
    fun s t u ht hu => ?afterInit⟩
  case afterInit =>
    obtain rfl := eq_execState_of_exec ht
    obtain rfl := eq_execState_of_exec hu
    simp [execState, readReg, regRead, ctrlByte, flagEnabled, lifecycleBit]

/-- Settles O25: the words, the flags in STATUS's bit order, the read beside a publishing sample, and R220's example. -/
theorem rdStatusReadsTheFlags : Obligations.RdStatusReadsTheFlags := by
  refine ⟨decodeCmd_assembleCmd_read .status, exec_readOp (n := .status) nofun, readsPreStepValue nofun,
    fun s t hen hslot herr hdbg ht => ?worked⟩
  case worked =>
    obtain rfl := eq_execState_of_exec ht
    have hpending : (s.regs.mailbox != 0) = true := bne_iff_ne.mpr hslot
    simp only [execState, readReg, State.setRdata_rdata, regRead, statusByte, flagDbgActive, flagErr, flagPending,
      flagEnabled, hen, hpending, herr, hdbg]
    decide

/-- Settles O27: the words, the latch read and kept, the read beside a sample, and R222's example after 0x0600. -/
theorem rdErrcauseReadsTheLatch : Obligations.RdErrcauseReadsTheLatch := by
  have hread (r : Regs) : regRead .errcause r = 0#6 ++ r.errcause := zextCause_eq_append r.errcause
  refine ⟨decodeCmd_assembleCmd_read .errcause, fun s => ?meaning, ?inStep,
    fun s t herr => ⟨by decide, fun ht => ?worked⟩⟩
  case meaning => rw [← hread, ← exec_readOp (n := .errcause) nofun, readOp]
  case inStep => exact funext hread ▸ readsPreStepValue nofun
  case worked =>
    obtain rfl := eq_execState_of_exec ht
    rw [raiseIllegal_eq, herr]
    rfl

/-- A completing block counts the dump down by one, as far as 0 (R226). -/
theorem acceptSample_last_of_block_dbgRemain (u : Byte) {s : State} (he : s.regs.enabled = true) (hi : s.regs.idx = 99) :
    (acceptSample Config.params u s).regs.dbgRemain = if s.regs.dbgRemain ≠ 0 then s.regs.dbgRemain - 1 else 0 := by
  rw [acceptSample_last_of_block u he hi, blockComplete_q1After]

/-- Settles O28: the words, the count read, the read beside a sample, and R223's example: a block counts the dump down. -/
theorem rdDbgcntReadsTheCount : Obligations.RdDbgcntReadsTheCount := by
  refine ⟨decodeCmd_assembleCmd_read .dbgcnt, exec_readOp (n := .dbgcnt) nofun, readsPreStepValue nofun,
    fun s x t u v hen hidx ht hu hv => ?worked⟩
  case worked =>
    obtain rfl := eq_execState_of_exec ht
    obtain rfl := eq_execState_of_exec hu
    obtain rfl := eq_execState_of_exec hv
    have hwritten : (execState (.wrDbgcnt 3) s).regs.dbgRemain = 3 := rfl
    have hcount := acceptSample_last_of_block_dbgRemain (s := execState (.wrDbgcnt 3) s) x hen hidx
    rw [hwritten] at hcount
    exact hcount.trans (by decide)

/-! ### ENERGY (R225) -/

/-- R230's command part returns at once for a lifecycle write only, and no command writes `ENERGY`. -/
theorem rule230Command_frame (S : Regs) (inp : StepInput) :
    (rule230Command S inp).done = inp.isLifecycle ∧ (rule230Command S inp).regs.energy = S.energy := by
  cases hv : inp.cmdValid with
  | false => simp [rule230Command, StepInput.isLifecycle, hv]
  | true =>
    cases hd : decodeCmd inp.cmd with
    | illegal c => simp [rule230Command_of_illegal hv hd, StepInput.isLifecycle, hd]
    | op i =>
      cases i with
      | wrCtrl d => simp [rule230Command_of_wrCtrl hv hd, StepInput.isLifecycle, hv, hd]
      | _ => simp [rule230Command, StepInput.isLifecycle, hv, hd]

/-- `ENERGY` over a whole step, read off R230. -/
theorem step_energy {s t : State} (h : step s = .next t) :
    t.regs.energy =
      if s.ports.rst then Bank.const 0
      else if s.completesBlock && s.regs.dbgRemain != 0 then s.regs.energiesAfter s.ports.sampleU8
      else s.regs.energy := by
  rw [stepIsTheSpecsStepFunction s, Host.Outcome.next.injEq] at h
  subst h
  obtain ⟨hdone, henergy⟩ := rule230Command_frame s.regs s.ports
  cases hrst : s.ports.rst with
  | true => simp [rule230Step, hrst, Regs.reset]
  | false =>
    cases hlife : s.ports.isLifecycle with
    | true => simp [rule230Step, hrst, hdone, hlife, henergy, State.completesBlock]
    | false =>
      simp [rule230Step, rule230Sample_eq, hrst, hdone, hlife, henergy, State.completesBlock_of_heard hrst hlife]

/-- Settles O29: the seven reads, beside a sample too, and the only writers of `ENERGY`. -/
theorem rdEnergyReadsTheLatchedEnergy : Obligations.RdEnergyReadsTheLatchedEnergy := by
  have hword (t : Tone) := decodeCmd_assembleCmd_read (.energy t)
  have hmeaning (t : Tone) := exec_readOp (n := .energy t) nofun
  refine ⟨fun d => ⟨hword .r1 d, hword .r2 d, hword .r3 d, hword .r4 d, hword .c1 d, hword .c2 d, hword .c3 d⟩,
    fun s =>
      ⟨hmeaning .r1 s, hmeaning .r2 s, hmeaning .r3 s, hmeaning .r4 s, hmeaning .c1 s, hmeaning .c2 s, hmeaning .c3 s⟩,
    fun t => readsPreStepValue nofun, rfl, fun s t => step_energy, fun s t henergy ht => ?worked⟩
  case worked =>
    obtain rfl := eq_execState_of_exec ht
    exact (congrArg Bank.c2 henergy :)

/-! ### WR CTRL (R217-R219) -/

/-- Settles O30: the words, the meaning for every DATA, and the step that drops its sample. -/
theorem wrCtrlRestartsTheDecoder : Obligations.WrCtrlRestartsTheDecoder := by
  refine ⟨decodeCmd_assembleCmd_write .ctrl, exec_wrCtrl, fun s inp rest d hin hrst hv hd => ?inStep⟩
  case inStep =>
    obtain rfl : s.ports = inp := State.ports_cons hin
    exact step_of_wrCtrl hrst hv hd

/-- Settles O31: DISABLE's registers, DISABLE twice, and a sample and a take after it. -/
theorem wrCtrlDisableStopsTheDecoder : Obligations.WrCtrlDisableStopsTheDecoder := by
  refine ⟨fun d s hd => hd ▸ exec_wrCtrl d s, fun s t u ht hu => ?twice, fun s t x ht => ?sample,
    fun s t u ht hu => ?take⟩
  case twice =>
    obtain rfl := eq_execState_of_exec ht
    exact eq_execState_of_exec hu
  case sample =>
    obtain rfl := eq_execState_of_exec ht
    rw [exec_sample, acceptSample_of_disabled _ _ rfl]
  case take =>
    obtain rfl := eq_execState_of_exec ht
    obtain rfl := eq_execState_of_exec hu
    rfl

/-! ### WR DBGCNT (R224) -/

theorem exec_wrDbgcnt (d : Byte) (s : State) :
    exec (.wrDbgcnt d) s = .next { s with regs := { s.regs with dbgRemain := d }, out := { s.out with rdata := 0 } } := rfl

/-- The step of a WR DBGCNT is the command-free step, whose `rdata` is 0 already, with the count written. -/
theorem step_of_wrDbgcnt {s t : State} {d : Byte} (hrst : s.ports.rst = false) (hv : s.ports.cmdValid = true)
    (hd : decodeCmd s.ports.cmd = .op (.wrDbgcnt d)) (ht : step s.withoutCommand = .next t) :
    step s = .next { t with regs := { t.regs with dbgRemain := d } } := by
  rw [step_withoutCommand hrst, Host.Outcome.next.injEq] at ht
  have hrdata : t.setRdata 0 = t := by
    rw [← ht, ← foldl_sampleEvents_setRdata]
    rfl
  calc step s
    _ = .next (Event.apply t (.op (.wrDbgcnt d))) := by
      rw [step_eq, hrst, stepEvents_of_wrDbgcnt hv hd, List.foldl_append, ht]
      rfl
    _ = .next ((t.setRdata 0).setRegs (t.regs.setDbgRemain d)) := rfl
    _ = .next { t with regs := { t.regs with dbgRemain := d } } := by
      rw [hrdata]
      rfl

/-- Settles O32: the words, the meaning, the write in its step, and the dump by the count from before the step. -/
theorem wrDbgcntWinsOverTheDecrement : Obligations.WrDbgcntWinsOverTheDecrement := by
  refine ⟨decodeCmd_assembleCmd_write .dbgcnt, exec_wrDbgcnt, fun s inp rest d t hin hrst hv hd ht => ?inStep,
    fun s t hcompletes ht => ⟨?pulse, ?energy⟩⟩
  case inStep =>
    obtain rfl : s.ports = inp := State.ports_cons hin
    exact step_of_wrDbgcnt hrst hv hd ht
  case pulse =>
    rw [step_out ht, hcompletes, Bool.true_and, bne_iff_ne]
  case energy =>
    have hrst : s.ports.rst = false := by
      cases hrst : s.ports.rst with
      | false => rfl
      | true => simp [State.completesBlock, hrst] at hcompletes
    rw [step_energy ht, hrst, hcompletes]
    by_cases hdump : s.regs.dbgRemain = 0 <;> simp [hdump]

end Sys2Proof.Machine
end

section
/-! PROOFS. The core's one exception, an illegal command (60_exceptions.md): which words raise it (R261), what its step changes
(R263), and the latch over all steps (R262). -/

namespace Sys2Proof

/-! ### The three classes of illegal words (R83, R261) -/

/-- The addresses of no register (R61). -/
def unassignedAddrs : List RegAddr := [0x5, 0x6, 0x7, 0xF]

/-- The addresses of the registers that no command may write (R61). -/
def readOnlyAddrs : List RegAddr := [0x1, 0x2, 0x3, 0x8, 0x9, 0xA, 0xB, 0xC, 0xD, 0xE]

theorem regAt_eq_none_iff (a : RegAddr) : regAt a = none ↔ a ∈ unassignedAddrs := by
  decide +revert

theorem addr_notMem_unassignedAddrs (r : RegName) : r.addr ∉ unassignedAddrs := by
  simp [← regAt_eq_none_iff]

theorem writeOp_eq_illegal_iff (d : Byte) (r : RegName) (c : Cause) :
    writeOp d r = .illegal c ↔ c = .badDir ∧ r.addr ∈ readOnlyAddrs := by
  cases r with
  | ctrl | dbgcnt => simp [writeOp, RegName.addr, readOnlyAddrs]
  | energy t => cases t <;> simp [writeOp, RegName.addr, readOnlyAddrs, eq_comm]
  | status | digit | errcause => simp [writeOp, RegName.addr, readOnlyAddrs, eq_comm]

/-- An assigned register refuses its write only, and only when it is read-only. -/
theorem commandOp_eq_illegal_iff (b : Bool) (r : RegName) (d : Byte) (c : Cause) :
    commandOp b r d = .illegal c ↔ c = .badDir ∧ b = true ∧ r.addr ∈ readOnlyAddrs := by
  cases b with
  | false => simp [commandOp]
  | true => simp [commandOp, writeOp_eq_illegal_iff]

/-- The decoder's three exits, in R264's order: a reserved bit, an unassigned address, or a register's command. -/
theorem decodeCmd_cases (w : CmdWord) :
    (cmdRsv w ≠ 0#3 ∧ decodeCmd w = .illegal .rsvBits) ∨
      (cmdRsv w = 0#3 ∧ cmdAddr w ∈ unassignedAddrs ∧ decodeCmd w = .illegal .badAddr) ∨
      (cmdRsv w = 0#3 ∧ ∃ r : RegName, cmdAddr w = r.addr ∧ decodeCmd w = commandOp (cmdW w) r (cmdData w)) := by
  by_cases hrsv : cmdRsv w = 0#3
  · cases hr : regAt (cmdAddr w) with
    | none => exact .inr (.inl ⟨hrsv, (regAt_eq_none_iff _).mp hr, by simp [decodeCmd, hrsv, hr]⟩)
    | some r =>
      have haddr : cmdAddr w = r.addr := (addr_of_regAt hr).symm
      exact .inr (.inr ⟨hrsv, r, haddr, decodeCmd_eq_commandOp hrsv haddr⟩)
  · exact .inl ⟨hrsv, if_pos hrsv⟩

/-- Each cause's words, by the fields of the word (R261). -/
theorem decodeCmd_eq_illegal_iff (w : CmdWord) :
    (decodeCmd w = .illegal .rsvBits ↔ cmdRsv w ≠ 0) ∧
      (decodeCmd w = .illegal .badAddr ↔ cmdRsv w = 0 ∧ cmdAddr w ∈ unassignedAddrs) ∧
      (decodeCmd w = .illegal .badDir ↔ cmdRsv w = 0 ∧ cmdW w = true ∧ cmdAddr w ∈ readOnlyAddrs) := by
  obtain ⟨hrsv, hd⟩ | ⟨hrsv, haddr, hd⟩ | ⟨hrsv, r, haddr, hd⟩ := decodeCmd_cases w
  · simp [hd, hrsv]
  · have hreg : cmdAddr w ∉ readOnlyAddrs := by
      revert haddr
      generalize cmdAddr w = a
      decide +revert
    simp [hd, hrsv, haddr, hreg]
  · simp [hd, hrsv, haddr, commandOp_eq_illegal_iff, addr_notMem_unassignedAddrs]

/-- Settles O5: the decoder's three exits, the codes, and the latch as all that an illegal command writes of the registers. -/
theorem illegalCommandCauses : Obligations.IllegalCommandCauses :=
  ⟨decodeCmd_eq_illegal_iff, rfl, rfl, rfl, fun c s => congrArg Machine.State.regs (Machine.raiseIllegal_eq c s)⟩

end Sys2Proof

namespace Sys2Proof.Machine

/-! ### The step of an illegal command (R263) -/

/-- R230's sample part neither reads nor writes the latch that the command part leaves. -/
theorem rule230Sample_setErrcause (p : Params) (S : Regs) (inp : StepInput) (c : CommandPart) (e : BitVec 2) :
    rule230Sample p S inp { c with regs := c.regs.setErrcause e } =
      ((rule230Sample p S inp c).1.setErrcause e, (rule230Sample p S inp c).2) := rfl

/-- The sample alone runs on what a step begins with. -/
theorem step_withoutCommand_rule230 {s : State} (hrst : s.ports.rst = false) :
    step s.withoutCommand =
      .next (s.begun.answer (rule230Sample Config.params s.regs s.ports s.begun.commandPart)) := by
  rw [step_withoutCommand hrst, foldl_sampleEvents_rule230 s.ports (s := s.begun) rfl]
  rfl

theorem step_of_illegal {s : State} {c : Cause} (hrst : s.ports.rst = false) (hv : s.ports.cmdValid = true)
    (hd : decodeCmd s.ports.cmd = .illegal c) :
    step s =
      .next
        (s.begun.answer
          (rule230Sample Config.params s.regs s.ports
            { s.begun.commandPart with
              regs := s.regs.setErrcause (if s.regs.errcause = 0 then c.code else s.regs.errcause) })) := by
  rw [stepIsTheSpecsStepFunction s, rule230Step, hrst, rule230Command_of_illegal hv hd]
  rfl

/-- Settles O41: R230's sample part runs on the same pre-step registers with the latch set beside it, and the sample part
leaves `rdata` at 0. -/
theorem illegalCommandOnlyLatchesItsCause : Obligations.IllegalCommandOnlyLatchesItsCause := by
  intro s inp rest c t hin hrst hv hd ht
  obtain rfl : s.ports = inp := State.ports_cons hin
  rw [step_withoutCommand_rule230 hrst, Host.Outcome.next.injEq] at ht
  subst ht
  refine ⟨?step, rfl⟩
  case step =>
    rw [step_of_illegal hrst hv hd]
    exact congrArg (Host.Outcome.next <| s.begun.answer ·) (rule230Sample_setErrcause _ _ _ s.begun.commandPart _)

/-! ### The latch over all steps (R262) -/

/-- No legal command writes the latch; a read of it does not clear it. -/
theorem rule230Command_errcause_of_op {S : Regs} {inp : StepInput} {i : Instr} (hd : decodeCmd inp.cmd = .op i) :
    (rule230Command S inp).regs.errcause = S.errcause := by
  cases hv : inp.cmdValid with
  | false => simp [rule230Command, hv]
  | true =>
    cases i with
    | wrCtrl d =>
      rw [rule230Command_of_wrCtrl hv hd]
      rfl
    | _ => simp [rule230Command, hv, hd]

theorem rule230Sample_errcause (p : Params) (S : Regs) (inp : StepInput) (c : CommandPart) :
    (rule230Sample p S inp c).1.errcause = c.regs.errcause := rfl

/-- Only a reset and the command part of R230 write the latch. -/
theorem step_errcause {s t : State} (h : step s = .next t) :
    t.regs.errcause = if s.ports.rst then 0 else (rule230Command s.regs s.ports).regs.errcause := by
  rw [stepIsTheSpecsStepFunction s, Host.Outcome.next.injEq] at h
  subst h
  cases hrst : s.ports.rst with
  | true => simp [rule230Step, hrst, Regs.reset]
  | false => cases hdone : (rule230Command s.regs s.ports).done <;> simp [rule230Step, hrst, hdone, rule230Sample_errcause]

/-- STATUS.ERR is bit 2 of the register (R29, R220). -/
theorem statusByte_err (r : Regs) : (statusByte r).getLsbD 2 = (r.errcause != 0) := by
  simp only [statusByte, BitVec.getLsbD_append]
  simp [flagErr]

/-- Settles O54: a reset clears the latch, an illegal command sets it if it is 0, no other command writes it, and STATUS.ERR. -/
theorem errcauseHoldsTheFirstCauseUntilReset : Obligations.ErrcauseHoldsTheFirstCauseUntilReset := by
  refine ⟨fun s t h => ?step, fun s t h => ?status⟩
  case step =>
    rw [step_errcause h]
    cases hv : s.ports.cmdValid with
    | false => by_cases herr : s.regs.errcause = 0#2 <;> simp [rule230Command, hv, herr]
    | true =>
      cases hd : decodeCmd s.ports.cmd with
      | illegal c => by_cases herr : s.regs.errcause = 0#2 <;> simp [rule230Command_of_illegal hv hd, herr]
      | op i => by_cases herr : s.regs.errcause = 0#2 <;> simp [rule230Command_errcause_of_op hd, herr]
  case status =>
    obtain rfl := eq_execState_of_exec h
    exact statusByte_err s.regs

end Sys2Proof.Machine
end

section
/-! PROOFS. Hardware reset and the two commands that leave a state like it (70_reset_and_hazards.md R280, R281). -/

namespace Sys2Proof.Machine

/-- A step shows the slot it begins with, so after a reset step, which empties it, `digit_pending` is 0. -/
theorem step_after_rst_digitPending {s t u : State} (hrst : s.ports.rst = true) (ht : step s = .next t)
    (hu : step t = .next u) : u.out.digitPending = false := by
  have hslot : t.regs.mailbox = 0 := by rw [step_mailbox ht, hrst, Bool.true_or, if_pos rfl]
  rw [step_out hu, hslot]
  rfl

/-- Settles O38: the reset step, and the slot that the step after it begins with. -/
theorem resetStepOverridesThePorts : Obligations.ResetStepOverridesThePorts := by
  intro s inp rest hin hrst
  obtain rfl : s.ports = inp := State.ports_cons hin
  refine ⟨?resetStep, fun t u => step_after_rst_digitPending hrst⟩
  case resetStep =>
    rw [step_of_rst hrst, State.begun, hin]
    rfl

/-- Settles O39: RESET_STATE's literal, and `exec_wrCtrl` at the words of INIT and DISABLE. -/
theorem resetStateValues : Obligations.ResetStateValues :=
  ⟨rfl, fun s => ⟨⟨_, exec_wrCtrl 1 s, rfl⟩, _, exec_wrCtrl 0 s, rfl⟩⟩

end Sys2Proof.Machine
end

section
/-! PROOFS. The round trip of decoder and encoder (30_encoding.md R80-R83, R91), both ways, and its worked words. -/

namespace Sys2Proof.Machine

/-- The decoder reads back every encoded operation: a register's read, its write, or the sample port's word. -/
theorem decode_encode (i : Instr) : decode (encode i) = .op i := by
  cases i with
  | rdCtrl => exact decodeCmd_assembleCmd_read .ctrl 0
  | wrCtrl d => exact decodeCmd_assembleCmd_write .ctrl d
  | rdStatus => exact decodeCmd_assembleCmd_read .status 0
  | rdDigit => exact decodeCmd_assembleCmd_read .digit 0
  | rdErrcause => exact decodeCmd_assembleCmd_read .errcause 0
  | rdDbgcnt => exact decodeCmd_assembleCmd_read .dbgcnt 0
  | wrDbgcnt d => exact decodeCmd_assembleCmd_write .dbgcnt d
  | rdEnergy0 => exact decodeCmd_assembleCmd_read (.energy .r1) 0
  | rdEnergy1 => exact decodeCmd_assembleCmd_read (.energy .r2) 0
  | rdEnergy2 => exact decodeCmd_assembleCmd_read (.energy .r3) 0
  | rdEnergy3 => exact decodeCmd_assembleCmd_read (.energy .r4) 0
  | rdEnergy4 => exact decodeCmd_assembleCmd_read (.energy .c1) 0
  | rdEnergy5 => exact decodeCmd_assembleCmd_read (.energy .c2) 0
  | rdEnergy6 => exact decodeCmd_assembleCmd_read (.energy .c3) 0
  | sample u => rfl

/-- Settles O2: no operand is left out by well-formedness, so `decode_encode` is the statement. -/
theorem decodeOfEncodeIsTheOperation : Obligations.DecodeOfEncodeIsTheOperation :=
  fun i _ => decode_encode i

/-- A word is put together again from its four fields (R80). -/
theorem append_cmdFields (w : CmdWord) : BitVec.ofBool (cmdW w) ++ cmdRsv w ++ cmdAddr w ++ cmdData w = w := by
  apply BitVec.eq_of_getLsbD_eq
  intro i hi
  simp only [cmdW, cmdRsv, cmdAddr, cmdData, BitVec.getLsbD_append]
  interval_cases i <;> simp

/-- A word with `RSV = 0` at a register's address is that register's command, assembled. -/
theorem assembleCmd_fields {w : CmdWord} {r : RegName} (hrsv : cmdRsv w = 0) (haddr : cmdAddr w = r.addr) :
    assembleCmd (cmdW w) r (cmdData w) = w := by
  rw [assembleCmd, ← haddr, ← hrsv, append_cmdFields]

/-- Settles O3: the encoding is the register's command with the word's own `DATA` for a write and 0 for a read, so under the
mask it is the word. -/
theorem legalWordIsItsEncodingUpToIgnoredData : Obligations.LegalWordIsItsEncodingUpToIgnoredData := by
  intro w i h
  obtain ⟨hrsv, r, haddr, hop⟩ := fields_of_decodeCmd_eq_op h
  refine ⟨_, encode_of_commandOp_eq_op hop, ?masked, fun hwrite => ?whole⟩
  case masked =>
    calc assembleCmd (cmdW w) r (if cmdW w then cmdData w else 0) &&& opMask
      _ = assembleCmd (cmdW w) r 0 := assembleCmd_and_opMask ..
      _ = w &&& opMask := ((and_opMask_eq_assembleCmd_iff w (cmdW w) r).mpr ⟨rfl, hrsv, haddr⟩).symm
  case whole =>
    have hw : cmdW w = true := hwrite
    rw [if_pos hw, assembleCmd_fields hrsv haddr]

/-- Settles O6: each word is closed, and the decoder evaluates on it. -/
theorem wordsDecodeAsWorked : Obligations.WordsDecodeAsWorked := by
  unfold Obligations.WordsDecodeAsWorked
  decide

/-- Settles O1: the record's defaults are the literals of the table, and the width check evaluates on them. -/
theorem defaultParametersAreTheSpecsTable : Obligations.DefaultParametersAreTheSpecsTable :=
  ⟨rfl, by decide⟩

end Sys2Proof.Machine
end

section
/-! PROOFS. What a step does to the registers of the sample path (40_pipeline.md R111, R112), said once, and the promises over
every step that follow from it: `ENABLED`, the dump, and the consumer (R207, R226). -/

namespace Sys2Proof.Machine

/-! ### The sample path over a step -/

/-- The sample path after the sample port's operation of a step that does not drop it (R111, R112). -/
def Regs.pathAfter (r : Regs) (inp : StepInput) : Regs :=
  if r.completes inp then { Regs.reset with enabled := r.enabled, dec := (r.verdictAfter inp.sampleU8).1 }
  else if inp.sampleValid && r.enabled then
    { r.samplePath with q1 := r.q1After inp.sampleU8, q2 := r.q1, idx := r.idx + 1 }
  else r.samplePath

theorem Regs.completes_eq_true_iff (r : Regs) (inp : StepInput) :
    r.completes inp = true ↔ (inp.sampleValid && r.enabled) = true ∧ r.idx = 99 := by
  rw [Regs.completes, Bool.and_eq_true, beq_iff_eq]

/-- The three things a sample port can do: complete a block, advance inside one, or nothing. -/
theorem Regs.pathAfter_cases (r : Regs) (inp : StepInput) :
    ((inp.sampleValid && r.enabled) = true ∧ r.idx = 99 ∧
        r.pathAfter inp = { Regs.reset with enabled := r.enabled, dec := (r.verdictAfter inp.sampleU8).1 }) ∨
      ((inp.sampleValid && r.enabled) = true ∧ r.idx ≠ 99 ∧
        r.pathAfter inp = { r.samplePath with q1 := r.q1After inp.sampleU8, q2 := r.q1, idx := r.idx + 1 }) ∨
      ((inp.sampleValid && r.enabled) = false ∧ r.pathAfter inp = r.samplePath) := by
  rw [Regs.pathAfter]
  cases ha : inp.sampleValid && r.enabled with
  | false =>
    have hc : ¬r.completes inp = true := fun hc => by simp [((r.completes_eq_true_iff inp).mp hc).1] at ha
    exact .inr (.inr ⟨rfl, by rw [if_neg hc, if_neg (by simp)]⟩)
  | true =>
    by_cases hi : r.idx = 99
    · exact .inl ⟨rfl, hi, if_pos ((r.completes_eq_true_iff inp).mpr ⟨ha, hi⟩)⟩
    · have hc : ¬r.completes inp = true := fun hc => hi ((r.completes_eq_true_iff inp).mp hc).2
      exact .inr (.inl ⟨rfl, hi, by rw [if_neg hc, if_pos rfl]⟩)

theorem Regs.completes_congr {r r' : Regs} (h : r.samplePath = r'.samplePath) (inp : StepInput) :
    r.completes inp = r'.completes inp :=
  (congrArg (Regs.completes · inp) h :)

theorem Regs.pathAfter_congr {r r' : Regs} (h : r.samplePath = r'.samplePath) (inp : StepInput) :
    r.pathAfter inp = r'.pathAfter inp :=
  (congrArg (Regs.pathAfter · inp) h :)

theorem acceptSample_samplePath {inp : StepInput} (hv : inp.sampleValid = true) (s : State) :
    (acceptSample Config.params inp.sampleU8 s).regs.samplePath = s.regs.pathAfter inp := by
  obtain ⟨ha, hi, hpath⟩ | ⟨ha, hi, hpath⟩ | ⟨ha, hpath⟩ := s.regs.pathAfter_cases inp <;> rw [hpath]
  · have he : s.regs.enabled = true := (Bool.and_eq_true_iff.mp ha).2
    rw [acceptSample_last_of_block _ he hi, blockComplete_q1After]
    rfl
  · have he : s.regs.enabled = true := (Bool.and_eq_true_iff.mp ha).2
    rw [acceptSample_inside_block _ he hi]
    rfl
  · rw [hv, Bool.true_and] at ha
    rw [acceptSample_of_disabled _ _ ha]

theorem foldl_sampleEvents_samplePath (inp : StepInput) (s : State) :
    ((sampleEvents inp).foldl Event.apply s).regs.samplePath = s.regs.pathAfter inp := by
  cases hv : inp.sampleValid with
  | false => simp [sampleEvents, Regs.pathAfter, Regs.completes, hv]
  | true => simp [sampleEvents, hv, Event.apply, execState, acceptSample_samplePath hv]

theorem step_regs_of_rst {s t : State} (h : step s = .next t) (hrst : s.ports.rst = true) : t.regs = Regs.reset := by
  rw [step_of_rst hrst, Host.Outcome.next.injEq] at h
  subst h
  rfl

theorem step_regs_of_wrCtrl {s t : State} {d : Byte} (h : step s = .next t) (hrst : s.ports.rst = false)
    (hv : s.ports.cmdValid = true) (hd : decodeCmd s.ports.cmd = .op (.wrCtrl d)) :
    t.regs = s.regs.restart (lifecycleBit d) := by
  rw [step_of_wrCtrl hrst hv hd] at h
  obtain rfl := eq_execState_of_exec h
  rfl

/-- Without a lifecycle write only the sample moves the sample path. -/
theorem step_samplePath_of_heard {s t : State} (h : step s = .next t) (hrst : s.ports.rst = false)
    (hlife : s.ports.isLifecycle = false) : t.regs.samplePath = s.regs.pathAfter s.ports := by
  obtain ⟨pre, post, hevents, hpre, hpost⟩ := stepEvents_around_sample hlife
  rw [step_of_heard h hrst, hevents, List.foldl_append, List.foldl_append, foldl_apply_samplePath hpost,
    foldl_sampleEvents_samplePath]
  exact Regs.pathAfter_congr (foldl_apply_samplePath hpre s.begun) s.ports

/-- All that a step can do to the sample path: a reset, a lifecycle write, or its sample (R217, R230, R281). -/
theorem step_samplePath_cases {s t : State} (h : step s = .next t) :
    (s.ports.rst = true ∧ t.regs = Regs.reset) ∨
      (∃ d, s.ports.cmdValid = true ∧ decodeCmd s.ports.cmd = .op (.wrCtrl d) ∧
        t.regs = s.regs.restart (lifecycleBit d)) ∨
      t.regs.samplePath = s.regs.pathAfter s.ports := by
  cases hrst : s.ports.rst with
  | true => exact .inl ⟨rfl, step_regs_of_rst h hrst⟩
  | false =>
    cases hlife : s.ports.isLifecycle with
    | true =>
      obtain ⟨hv, d, hd⟩ := (StepInput.isLifecycle_iff _).mp hlife
      exact .inr (.inl ⟨d, hv, hd, step_regs_of_wrCtrl h hrst hv hd⟩)
    | false => exact .inr (.inr (step_samplePath_of_heard h hrst hlife))

/-! ### `ENABLED` -/

theorem Regs.pathAfter_enabled (r : Regs) (inp : StepInput) : (r.pathAfter inp).enabled = r.enabled := by
  obtain ⟨-, -, hpath⟩ | ⟨-, -, hpath⟩ | ⟨-, hpath⟩ := r.pathAfter_cases inp <;> rw [hpath] <;> rfl

theorem step_enabled_of_samplePath {s t : State} (hpath : t.regs.samplePath = s.regs.pathAfter s.ports) :
    t.regs.enabled = s.regs.enabled :=
  calc t.regs.enabled
    _ = (s.regs.pathAfter s.ports).enabled := (congrArg Regs.enabled hpath :)
    _ = s.regs.enabled := Regs.pathAfter_enabled ..

/-- Settles O51: of the step's three cases only the sample's leaves `ENABLED`, and the other two are the ones named. -/
theorem enabledChangesOnlyByLifecycleOrReset : Obligations.EnabledChangesOnlyByLifecycleOrReset := by
  intro s t h hne
  obtain ⟨hrst, -⟩ | ⟨d, hv, hd, ht⟩ | hpath := step_samplePath_cases h
  · exact .inl hrst
  · exact .inr ⟨hv, d, hd, congrArg Regs.enabled ht⟩
  · exact absurd (step_enabled_of_samplePath hpath) hne

/-! ### The dump (R226) -/

theorem State.completesBlock_eq (s : State) :
    s.completesBlock = (!s.ports.rst && !s.ports.isLifecycle && s.regs.completes s.ports) := by
  simp only [State.completesBlock, Regs.completes, Bool.and_assoc]

theorem step_samplePath_congr {s₁ s₂ t₁ t₂ : State} (hports : s₁.ports = s₂.ports)
    (hpath : s₁.regs.samplePath = s₂.regs.samplePath) (h₁ : step s₁ = .next t₁) (h₂ : step s₂ = .next t₂) :
    t₁.regs.samplePath = t₂.regs.samplePath := by
  cases hrst : s₁.ports.rst with
  | true => rw [step_regs_of_rst h₁ hrst, step_regs_of_rst h₂ (hports ▸ hrst)]
  | false =>
    cases hlife : s₁.ports.isLifecycle with
    | true =>
      obtain ⟨hv, d, hd⟩ := (StepInput.isLifecycle_iff _).mp hlife
      rw [step_regs_of_wrCtrl h₁ hrst hv hd, step_regs_of_wrCtrl h₂ (hports ▸ hrst) (hports ▸ hv) (hports ▸ hd)]
      rfl
    | false =>
      rw [step_samplePath_of_heard h₁ hrst hlife, step_samplePath_of_heard h₂ (hports ▸ hrst) (hports ▸ hlife), hports,
        Regs.pathAfter_congr hpath]

theorem State.published_congr {s₁ s₂ : State} (hports : s₁.ports = s₂.ports)
    (hpath : s₁.regs.samplePath = s₂.regs.samplePath) : s₁.published = s₂.published := by
  have hverdict : s₁.regs.verdictAfter = s₂.regs.verdictAfter := (congrArg Regs.verdictAfter hpath :)
  rw [State.published, State.published, State.completesBlock_eq, State.completesBlock_eq, hports,
    Regs.completes_congr hpath, hverdict]

/-- The registers but for the dump's two are the sample path, the slot and the error latch. -/
theorem Regs.withoutDump_eq_iff (r r' : Regs) :
    r.withoutDump = r'.withoutDump ↔
      r.samplePath = r'.samplePath ∧ r.mailbox = r'.mailbox ∧ r.errcause = r'.errcause := by
  simp [Regs.withoutDump, Regs.samplePath]
  tauto

/-- Settles O55: no step's effect on the sample path, the slot or the error latch, and no publish, reads the dump's registers. -/
theorem dumpNeverAltersDecoding : Obligations.DumpNeverAltersDecoding := by
  intro s₁ s₂ t₁ t₂ hin hdump h₁ h₂
  obtain ⟨hpath, hslot, herr⟩ := (Regs.withoutDump_eq_iff _ _).mp hdump
  have hports : s₁.ports = s₂.ports := by rw [State.ports, State.ports, hin]
  have hpub := State.published_congr hports hpath
  obtain ⟨hlatch, -⟩ := errcauseHoldsTheFirstCauseUntilReset
  refine ⟨?inputs, (Regs.withoutDump_eq_iff _ _).mpr ⟨step_samplePath_congr hports hpath h₁ h₂, ?slot, ?latch⟩, ?_, ?_, ?_⟩
  case inputs =>
    rw [stepIsTheSpecsStepFunction, Host.Outcome.next.injEq] at h₁ h₂
    rw [← h₁, ← h₂, hin]
  case slot => rw [step_mailbox h₁, step_mailbox h₂, hports, hpub, hslot]
  case latch => rw [hlatch s₁ t₁ h₁, hlatch s₂ t₂ h₂, hports, herr]
  all_goals rw [step_out h₁, step_out h₂]
  · rw [hpub]
  · rw [hpub]
  · rw [hslot]

/-! ### The consumer (R207) -/

/-- A step whose command is no lifecycle write, its sample path, `ENERGY` and pulses written without its command. -/
theorem step_of_not_lifecycle {s t : State} {inp : StepInput} {rest : List StepInput} {b : Bool} {w : CmdWord}
    (hlife : StepInput.isLifecycle { inp with cmdValid := b, cmd := w } = false)
    (h : step { s with inputs := { inp with cmdValid := b, cmd := w } :: rest } = .next t) :
    t.regs.samplePath = (if inp.rst then Regs.reset else s.regs.pathAfter inp) ∧
      t.regs.energy =
        (if inp.rst then Bank.const 0
        else if s.regs.completes inp && s.regs.dbgRemain != 0 then s.regs.energiesAfter inp.sampleU8
        else s.regs.energy) ∧
      t.out.pubCode = (if !inp.rst && s.regs.completes inp then (s.regs.verdictAfter inp.sampleU8).2 else 0) ∧
      t.out.pubValid = (t.out.pubCode != 0) ∧
      t.out.energyValid = (!inp.rst && s.regs.completes inp && s.regs.dbgRemain != 0) := by
  have hcompletes :
      State.completesBlock { s with inputs := { inp with cmdValid := b, cmd := w } :: rest } =
        (!inp.rst && s.regs.completes inp) := by
    rw [State.completesBlock_eq, State.ports_cons rfl, hlife, Bool.not_false, Bool.and_true]
    rfl
  obtain ⟨hslot, -⟩ := mailboxChangesOnlyByPublishTakeAndReset
  obtain ⟨-, -, hcode, hvalid, hlatched, -⟩ := hslot _ _ h
  rw [hcompletes] at hcode hlatched
  refine ⟨?path, ?energy, hcode, hvalid, hlatched⟩
  case path =>
    cases hrst : inp.rst with
    | true => rw [step_regs_of_rst h hrst, if_pos rfl]; rfl
    | false => rw [step_samplePath_of_heard h hrst hlife, if_neg (by simp)]; rfl
  case energy =>
    rw [step_energy h, hcompletes, State.ports_cons rfl]
    cases inp.rst <;> rfl

/-- Settles O56: the sample path, `ENERGY` and the pulses of a step without lifecycle write do not speak of its command. -/
theorem consumerNeverDisturbsTheSamplePath : Obligations.ConsumerNeverDisturbsTheSamplePath := by
  intro s inp rest b₁ b₂ w₁ w₂ t₁ t₂ hlife₁ hlife₂ h₁ h₂
  obtain ⟨hpath₁, henergy₁, hcode₁, hvalid₁, hlatched₁⟩ := step_of_not_lifecycle hlife₁ h₁
  obtain ⟨hpath₂, henergy₂, hcode₂, hvalid₂, hlatched₂⟩ := step_of_not_lifecycle hlife₂ h₂
  have hpath := hpath₁.trans hpath₂.symm
  have hcode := hcode₁.trans hcode₂.symm
  exact ⟨(congrArg Regs.enabled hpath :), (congrArg Regs.idx hpath :), (congrArg Regs.q1 hpath :),
    (congrArg Regs.q2 hpath :), Regs.dec_congr hpath, henergy₁.trans henergy₂.symm, by rw [hvalid₁, hvalid₂, hcode], hcode,
    hlatched₁.trans hlatched₂.symm⟩

end Sys2Proof.Machine
end

section
/-! PROOFS. The invariants of 10_state.md (R20, R21, R23, R25, R26, R36, R200): they hold at reset, and the step keeps them.
DecoderState has its own invariant, which the debouncer keeps. -/

namespace Sys2Proof.Machine

/-! ### The codes (R87) -/

/-- Three columns and four rows combine to the codes 1 to 12 at most. -/
theorem classify_le (p : Params) (e : Bank Byte) : (classify p e).toNat ≤ 12 := by
  have hcol : (columnWinner e).2 ≤ 2 := by
    unfold columnWinner max2
    split_ifs <;> simp
  have hrow (ri : Nat) : 1 ≤ rowOffset ri ∧ rowOffset ri ≤ 10 := by
    unfold rowOffset
    split <;> omega
  obtain hzero | ⟨-, -, -, -, -, hcode⟩ := classify_cases p e
  · simp [hzero]
  · have hoffset := hrow (rowWinner e).2
    rw [hcode, BitVec.toNat_ofNat]
    omega

/-! ### DecoderState (R24-R26) -/

/-- DecoderState's share of the invariants: a provisional code, counted blocks exactly when there is a candidate, and a
candidate's silence below MIN_SILENCE. -/
def DecoderState.Inv (d : DecoderState) : Prop :=
  d.activeDigit.toNat ≤ 12 ∧ (d.activeDigit = 0 ↔ d.activeCount = 0) ∧
    (d.activeDigit ≠ 0 → d.silenceCount.toNat < Config.params.minSilence)

theorem satInc_params_toNat (v : Byte) : (satInc Config.params v).toNat = min (v.toNat + 1) 255 :=
  satInc_toNat (by decide) v

/-- A saturating count is never 0 again: it does not wrap (R9). -/
theorem satInc_ne_zero (v : Byte) : satInc Config.params v ≠ 0 := by
  have hcount := satInc_params_toNat v
  intro h
  have hwrapped : (satInc Config.params v).toNat = 0 := congrArg BitVec.toNat h
  omega

/-- One block keeps DecoderState's invariant, and publishes at most the candidate it held. -/
theorem debounce_inv {d : DecoderState} (h : d.Inv) {n : Code} (hn : n.toNat ≤ 12) :
    (debounce Config.params d n).1.Inv ∧ (debounce Config.params d n).2.toNat ≤ 12 := by
  obtain ⟨hcode, hzero, hrecent⟩ := h
  have hfresh : (0 : Byte).toNat < Config.params.minSilence := by decide
  obtain ⟨hn0, hsame, -, hd⟩ | ⟨hn0, -, hd⟩ | ⟨-, -, -, hd⟩ | ⟨-, hwait, hd⟩ := debounce_cases Config.params d n <;>
    rw [hd]
  · exact ⟨⟨hcode, iff_of_false (hsame ▸ hn0) (satInc_ne_zero _), fun _ => hfresh⟩, Nat.zero_le _⟩
  · exact ⟨⟨hn, iff_of_false hn0 (by simp), fun _ => hfresh⟩, Nat.zero_le _⟩
  · refine ⟨⟨Nat.zero_le _, iff_of_true rfl rfl, fun hne => absurd rfl hne⟩, ?_⟩
    dsimp only
    split
    · exact hcode
    · exact Nat.zero_le _
  · exact ⟨⟨hcode, hzero, fun hne => hwait.resolve_left hne⟩, Nat.zero_le _⟩

/-! ### The invariants over a step -/

theorem Regs.restart_inv (r : Regs) (en : Bool) : (r.restart en).Inv where
  idx_lt := by rw [Regs.restart_idx]; decide
  digit_le := by rw [Regs.restart_dec]; decide
  mailbox_le := by rw [Regs.restart_mailbox]; decide
  digit_zero_iff := by rw [Regs.restart_dec]; decide
  candidate_recent := by rw [Regs.restart_dec]; decide
  fresh _ := ⟨rfl, rfl⟩
  disabled_quiet _ := ⟨rfl, rfl, rfl, rfl, rfl⟩

theorem Regs.reset_inv : Regs.reset.Inv := Regs.restart_inv Regs.reset false

theorem Regs.Inv.decoder {r : Regs} (h : r.Inv) : r.dec.Inv := ⟨h.digit_le, h.digit_zero_iff, h.candidate_recent⟩

theorem Regs.verdictAfter_inv {r : Regs} (h : r.Inv) (u : Byte) :
    (r.verdictAfter u).1.Inv ∧ (r.verdictAfter u).2.toNat ≤ 12 :=
  debounce_inv h.decoder (classify_le _ _)

/-- What a step published is a code, so the slot holds 0 or a code (R200). -/
theorem step_mailbox_le {s t : State} (hinv : s.regs.Inv) (h : step s = .next t) : t.regs.mailbox.toNat ≤ 12 := by
  have hpub : s.published.toNat ≤ 12 := by
    rw [State.published]
    split
    · exact (Regs.verdictAfter_inv hinv _).2
    · simp
  rw [step_mailbox h]
  split_ifs
  · simp
  · exact hpub
  · simp
  · exact hinv.mailbox_le

/-- Below N_BLOCK the index counts without wrapping, and its successor is 0 in no block. -/
theorem idx_succ_toNat {i : BitVec 7} (hlt : i.toNat < Config.params.nBlock) (hne : i ≠ 99) :
    (i + 1).toNat = i.toNat + 1 ∧ (i + 1).toNat < Config.params.nBlock := by
  have hlt : i.toNat < 100 := hlt
  have hne : i.toNat ≠ 99 := mt (idx_last_iff _).mp hne
  have hnext : (i + 1).toNat = (i.toNat + 1) % 128 := BitVec.toNat_add i 1
  have hblock : Config.params.nBlock = 100 := rfl
  omega

/-- The sample path's own invariants after the sample: the index, the decoder, and zeroed filters at a block boundary. -/
theorem Regs.pathAfter_inv {r : Regs} (h : r.Inv) (inp : StepInput) :
    (r.pathAfter inp).idx.toNat < Config.params.nBlock ∧ (r.pathAfter inp).dec.Inv ∧
      ((r.pathAfter inp).idx = 0 → (r.pathAfter inp).q1 = Bank.const 0 ∧ (r.pathAfter inp).q2 = Bank.const 0) := by
  obtain ⟨-, -, hpath⟩ | ⟨-, hi, hpath⟩ | ⟨-, hpath⟩ := r.pathAfter_cases inp <;> rw [hpath]
  · exact ⟨Nat.zero_lt_succ _, (Regs.verdictAfter_inv h _).1, fun _ => ⟨rfl, rfl⟩⟩
  · obtain ⟨hsucc, hlt⟩ := idx_succ_toNat h.idx_lt hi
    refine ⟨hlt, h.decoder, fun hzero => ?_⟩
    have hwrapped : (r.idx + 1).toNat = 0 := congrArg BitVec.toNat hzero
    omega
  · exact ⟨h.idx_lt, h.decoder, h.fresh⟩

/-- A disabled decoder stays quiet: its sample is ignored and publishes nothing (R36). -/
theorem step_quiet {s t : State} (hquiet : s.regs.Quiet) (hdis : s.regs.enabled = false) (h : step s = .next t)
    (hpath : t.regs.samplePath = s.regs.pathAfter s.ports) : t.regs.Quiet := by
  obtain ⟨hidx, hq1, hq2, hdec, hslot⟩ := hquiet
  have hsame : t.regs.samplePath = s.regs.samplePath := by
    rw [hpath, Regs.pathAfter, Regs.completes]
    simp [hdis]
  have hpub : s.published = 0 := by simp [State.published, State.completesBlock, hdis]
  refine ⟨.trans (congrArg Regs.idx hsame :) hidx, .trans (congrArg Regs.q1 hsame :) hq1,
    .trans (congrArg Regs.q2 hsame :) hq2, (Regs.dec_congr hsame).trans hdec, ?_⟩
  rw [step_mailbox h, hpub, hslot]
  simp

/-- Settles O45: a reset and a lifecycle write leave a cleared machine; a sample keeps the sample path's invariants, and the
slot's and the disabled decoder's are those of the whole step. -/
theorem everyStepKeepsTheInvariants : Obligations.EveryStepKeepsTheInvariants := by
  intro s t hinv h
  obtain ⟨-, ht⟩ | ⟨d, -, -, ht⟩ | hpath := step_samplePath_cases h
  · exact ht ▸ Regs.reset_inv
  · exact ht ▸ Regs.restart_inv _ _
  · obtain ⟨hidx, ⟨hcode, hzero, hrecent⟩, hfresh⟩ := Regs.pathAfter_inv hinv s.ports
    rw [← hpath] at hidx hcode hzero hrecent hfresh
    refine ⟨hidx, hcode, step_mailbox_le hinv h, hzero, hrecent, hfresh, fun hdis => ?quiet⟩
    case quiet =>
      rw [step_enabled_of_samplePath hpath] at hdis
      exact step_quiet (hinv.disabled_quiet hdis) hdis h hpath

end Sys2Proof.Machine
end

section
/-! PROOFS. Streaming is the block at a time (40_pipeline.md R113, R115): the recursion registers are the filters run over the
current block's samples. -/

namespace Sys2Proof.Machine

/-- At a block boundary the filters are in step with the empty block. -/
theorem Regs.streaming_of_fresh {r : Regs} (hidx : r.idx = 0) (hq1 : r.q1 = Bank.const 0) (hq2 : r.q2 = Bank.const 0) :
    r.Streaming := by
  refine ⟨by rw [hidx]; decide, [], by rw [hidx]; rfl, fun a => ?_⟩
  rw [hq1, hq2, Bank.get_const]
  rfl

/-- One more sample inside a block is one more step of every filter. -/
theorem filterRun_center_concat {r : Regs} {us : List Byte} {a : Tone}
    (h : (r.q1.get a, r.q2.get a) = filterRun Config.params a (us.map (center Config.params))) (u : Byte) :
    ((r.q1After u).get a, r.q1.get a) = filterRun Config.params a ((us ++ [u]).map (center Config.params)) := by
  rw [List.map_append, List.map_singleton, filterRun_concat, ← h, ← nextQ1_center, nextQ1_get]
  rfl

theorem Regs.pathAfter_streaming {r : Regs} (h : r.Streaming) (inp : StepInput) : (r.pathAfter inp).Streaming := by
  obtain ⟨hlt, us, hlen, hfilters⟩ := h
  obtain ⟨-, -, hpath⟩ | ⟨-, hi, hpath⟩ | ⟨-, hpath⟩ := r.pathAfter_cases inp <;> rw [hpath]
  · exact Regs.streaming_of_fresh rfl rfl rfl
  · obtain ⟨hsucc, hlt⟩ := idx_succ_toNat hlt hi
    refine ⟨hlt, us ++ [inp.sampleU8], ?_, fun a => filterRun_center_concat (hfilters a) inp.sampleU8⟩
    rw [List.length_append, hlen]
    exact hsucc.symm
  · exact ⟨hlt, us, hlen, hfilters⟩

/-- Settles O46: a reset and a lifecycle write start an empty block; a sample adds itself to the block or completes it. -/
theorem everyStepKeepsTheFiltersInStep : Obligations.EveryStepKeepsTheFiltersInStep := by
  intro s t hstream h
  obtain ⟨-, ht⟩ | ⟨d, -, -, ht⟩ | hpath := step_samplePath_cases h
  · exact ht ▸ Regs.streaming_of_fresh rfl rfl rfl
  · exact ht ▸ Regs.streaming_of_fresh rfl rfl rfl
  · have hkeep := Regs.pathAfter_streaming hstream s.ports
    rw [← hpath] at hkeep
    exact hkeep

/-- Settles O44: a lifecycle write's laws hold of RESET_STATE, and its filters are at a block boundary. -/
theorem invariantsHoldAtReset : Obligations.InvariantsHoldAtReset :=
  ⟨Regs.reset_inv, Regs.streaming_of_fresh rfl rfl rfl⟩

end Sys2Proof.Machine
end

section
/-! PROOFS. The recursion's range (41_tone_energy_estimator.md R132, R133, R135): a filter is an exact linear recursion driven by
its samples less the floor's errors, so its values are bounded by the sum of its impulse response. -/

namespace Sys2Proof.Machine

/-! ### The recursion step (R132) -/

/-- The rescaled product is a floor: between the exact quotient and one below it. -/
theorem goertzelStep_floor (q1 q2 x : Int) (c : Nat) :
    64 * ((goertzelStep Config.params q1 q2 x c).1 + q2 - x) ≤ c * q1 ∧
      c * q1 < 64 * ((goertzelStep Config.params q1 q2 x c).1 + q2 - x) + 64 := by
  have hquotient : (goertzelStep Config.params q1 q2 x c).1 + q2 - x = asr (c * q1) 6 := by
    simp only [goertzelStep, Config.params]
    ring
  rw [hquotient]
  exact asr_floor (c * q1) 6

/-- Settles O10: floor division, the bounds of a floor, and the section's examples evaluated. -/
theorem goertzelStepFloorsTheProduct : Obligations.GoertzelStepFloorsTheProduct :=
  ⟨goertzelStep_params, goertzelStep_floor, by decide, by decide, by decide⟩

/-! ### The impulse response (R135) -/

/-- R135's `h_m`, and `h_{m-1}` beside it (0 before the impulse). -/
def impulse (c : Nat) : Nat → ℚ × ℚ
  | 0 => (1, 0)
  | m + 1 => (c / 64 * (impulse c m).1 - (impulse c m).2, (impulse c m).1)

/-- The sum of `|h_j|` over `j < m`. -/
def impulseSum (c : Nat) : Nat → ℚ
  | 0 => 0
  | m + 1 => impulseSum c m + |(impulse c m).1|

theorem impulseSum_mono (c : Nat) : Monotone (impulseSum c) :=
  monotone_nat_of_le_succ fun _ => le_add_of_nonneg_right (abs_nonneg _)

/-- A step departs from the exact linear recursion by its sample less the floor's error, less than 128 in magnitude. -/
theorem goertzelStep_drive_le {x : Int} (hx : -127 ≤ x ∧ x ≤ 127) (q1 q2 : Int) (c : Nat) :
    |((goertzelStep Config.params q1 q2 x c).1 : ℚ) - (c / 64 * q1 - q2)| ≤ 128 := by
  obtain ⟨hlow, hhigh⟩ := goertzelStep_floor q1 q2 x c
  have hlow' : (64 * ((goertzelStep Config.params q1 q2 x c).1 + q2 - x) : ℚ) ≤ c * q1 := by exact_mod_cast hlow
  have hhigh' : (c * q1 : ℚ) < 64 * ((goertzelStep Config.params q1 q2 x c).1 + q2 - x) + 64 := by exact_mod_cast hhigh
  have hxlow : (-127 : ℚ) ≤ x := by exact_mod_cast hx.1
  have hxhigh : (x : ℚ) ≤ 127 := by exact_mod_cast hx.2
  rw [abs_le]
  constructor <;> linarith

/-- The filter of coefficient `c` over the samples `xs`, from any recursion values. -/
def filterFrom (c : Nat) (q : Int × Int) (xs : List Int) : Int × Int :=
  xs.foldl (fun q x => goertzelStep Config.params q.1 q.2 x c) q

theorem filterRun_eq_filterFrom (t : Tone) (xs : List Int) :
    filterRun Config.params t xs = filterFrom (Config.params.coef.get t) (0, 0) xs := rfl

/-- R135's bound, from any recursion values: the response to them, and 128 times the impulse sum for the samples. -/
theorem filterFrom_sub_response_le (c : Nat) {xs : List Int} (hxs : ∀ x ∈ xs, -127 ≤ x ∧ x ≤ 127) (q : Int × Int) :
    |((filterFrom c q xs).1 : ℚ) - ((impulse c xs.length).1 * q.1 - (impulse c xs.length).2 * q.2)| ≤
      128 * impulseSum c xs.length := by
  induction xs generalizing q with
  | nil => simp [filterFrom, impulse, impulseSum]
  | cons x xs ih =>
    obtain ⟨hx, hxs⟩ := List.forall_mem_cons.mp hxs
    have hrest := ih hxs (goertzelStep Config.params q.1 q.2 x c)
    have hdrive := goertzelStep_drive_le hx q.1 q.2 c
    have hterm := mul_le_mul_of_nonneg_left hdrive (abs_nonneg (impulse c xs.length).1)
    rw [← abs_mul] at hterm
    have hq2 : (goertzelStep Config.params q.1 q.2 x c).2 = q.1 := rfl
    rw [hq2] at hrest
    simp only [List.length_cons, impulse, impulseSum]
    calc |((filterFrom c q (x :: xs)).1 : ℚ) -
            ((c / 64 * (impulse c xs.length).1 - (impulse c xs.length).2) * q.1 - (impulse c xs.length).1 * q.2)|
      _ = |(((filterFrom c (goertzelStep Config.params q.1 q.2 x c) xs).1 : ℚ) -
              ((impulse c xs.length).1 * (goertzelStep Config.params q.1 q.2 x c).1 - (impulse c xs.length).2 * q.1)) +
            (impulse c xs.length).1 * ((goertzelStep Config.params q.1 q.2 x c).1 - (c / 64 * q.1 - q.2))| := by
        congr 1
        simp only [filterFrom, List.foldl_cons]
        ring
      _ ≤ 128 * impulseSum c xs.length + |(impulse c xs.length).1| * 128 :=
        (abs_add_le _ _).trans (add_le_add hrest hterm)
      _ = 128 * (impulseSum c xs.length + |(impulse c xs.length).1|) := by ring

/-- R135's table: 128 times the impulse sum of a block, rounded up. -/
theorem impulseSum_le_recursionBound (t : Tone) :
    128 * impulseSum (Config.params.coef.get t) 100 ≤ recursionBound.get t := by
  cases t <;> decide +kernel

theorem filterRun_fst_le (t : Tone) {xs : List Int} (hlen : xs.length ≤ 100) (hxs : ∀ x ∈ xs, -127 ≤ x ∧ x ≤ 127) :
    |(filterRun Config.params t xs).1| ≤ recursionBound.get t := by
  have hbound : |((filterRun Config.params t xs).1 : ℚ)| ≤ recursionBound.get t :=
    calc |((filterRun Config.params t xs).1 : ℚ)|
      _ ≤ 128 * impulseSum (Config.params.coef.get t) xs.length := by
        simpa [filterRun_eq_filterFrom] using filterFrom_sub_response_le (Config.params.coef.get t) hxs (0, 0)
      _ ≤ 128 * impulseSum (Config.params.coef.get t) 100 := by
        have := impulseSum_mono (Config.params.coef.get t) hlen
        linarith
      _ ≤ recursionBound.get t := impulseSum_le_recursionBound t
  exact_mod_cast hbound

/-- The second recursion value is the first one before the last sample. -/
theorem filterRun_snd_le (t : Tone) {xs : List Int} (hlen : xs.length ≤ 100) (hxs : ∀ x ∈ xs, -127 ≤ x ∧ x ≤ 127) :
    |(filterRun Config.params t xs).2| ≤ recursionBound.get t := by
  obtain rfl | ⟨ys, y, rfl⟩ := xs.eq_nil_or_concat'
  · cases t <;> decide
  · rw [filterRun_concat]
    exact filterRun_fst_le t (le_trans (by simp) hlen) fun x hx => hxs x (List.mem_append_left _ hx)

/-! ### The widths of the products (R133, R135) -/

theorem energyRaw_params (q1 q2 : Int) (c : Nat) :
    energyRaw Config.params q1 q2 c = 64 * (q1 * q1 + q2 * q2) - c * q1 * q2 := rfl

theorem abs_energyRaw_le {q1 q2 b : Int} (hq1 : |q1| ≤ b) (hq2 : |q2| ≤ b) (c : Nat) :
    |energyRaw Config.params q1 q2 c| ≤ (128 + c) * (b * b) := by
  have product {v w : Int} (hv : |v| ≤ b) (hw : |w| ≤ b) : |v * w| ≤ b * b := by
    rw [abs_mul]
    exact mul_le_mul hv hw (abs_nonneg w) (le_trans (abs_nonneg v) hv)
  have hcross : |c * (q1 * q2)| ≤ c * (b * b) := by
    rw [abs_mul, Nat.abs_cast]
    exact mul_le_mul_of_nonneg_left (product hq1 hq2) (Int.natCast_nonneg c)
  obtain ⟨hlow1, hhigh1⟩ := abs_le.mp (product hq1 hq1)
  obtain ⟨hlow2, hhigh2⟩ := abs_le.mp (product hq2 hq2)
  obtain ⟨hlow, hhigh⟩ := abs_le.mp hcross
  rw [energyRaw_params, abs_le]
  constructor <;> linarith

/-- R135's arithmetic on the table: the registers, the product and `raw` fit 16, 22 and 37 signed bits. -/
theorem recursionBound_widths (t : Tone) :
    recursionBound.get t < 2 ^ (Config.params.qWidth - 1) ∧
      (Config.params.coef.get t : Int) * recursionBound.get t < 2 ^ 21 ∧
      (128 + (Config.params.coef.get t : Int)) * (recursionBound.get t * recursionBound.get t) < 2 ^ 36 := by
  cases t <;> decide

/-- Settles O47: the bounds of the two recursion values, and the products' widths from them. -/
theorem recursionStaysWithinItsBounds : Obligations.RecursionStaysWithinItsBounds := by
  intro t xs hlen hxs
  have hfst := filterRun_fst_le t hlen hxs
  have hsnd := filterRun_snd_le t hlen hxs
  obtain ⟨-, hproduct, hraw⟩ := recursionBound_widths t
  refine ⟨hfst, hsnd, ?product, (abs_energyRaw_le hfst hsnd _).trans_lt hraw⟩
  case product =>
    rw [abs_mul, Nat.abs_cast]
    exact (mul_le_mul_of_nonneg_left hfst (Int.natCast_nonneg _)).trans_lt hproduct

/-! ### The registers of a step and of a run -/

/-- Registers in step with the current block hold no more than 16 signed bits (R135). -/
theorem Regs.Streaming.fits {r : Regs} (h : r.Streaming) (a : Tone) :
    (-(2 ^ (Config.params.qWidth - 1)) ≤ r.q1.get a ∧ r.q1.get a < 2 ^ (Config.params.qWidth - 1)) ∧
      (-(2 ^ (Config.params.qWidth - 1)) ≤ r.q2.get a ∧ r.q2.get a < 2 ^ (Config.params.qWidth - 1)) := by
  obtain ⟨hidx, us, hlen, hfilters⟩ := h
  have hidx : r.idx.toNat < 100 := hidx
  have hcentred : (us.map (center Config.params)).length ≤ 100 := by
    rw [List.length_map]
    omega
  have hrange : ∀ x ∈ us.map (center Config.params), -127 ≤ x ∧ x ≤ 127 := by
    rw [List.forall_mem_map]
    exact fun u _ => center_mem Config.params u
  obtain ⟨hwidth, -, -⟩ := recursionBound_widths a
  have hq1 : |r.q1.get a| < 2 ^ (Config.params.qWidth - 1) := by
    rw [show r.q1.get a = _ from congrArg Prod.fst (hfilters a)]
    exact (filterRun_fst_le a hcentred hrange).trans_lt hwidth
  have hq2 : |r.q2.get a| < 2 ^ (Config.params.qWidth - 1) := by
    rw [show r.q2.get a = _ from congrArg Prod.snd (hfilters a)]
    exact (filterRun_snd_le a hcentred hrange).trans_lt hwidth
  exact ⟨⟨(abs_lt.mp hq1).1.le, (abs_lt.mp hq1).2⟩, (abs_lt.mp hq2).1.le, (abs_lt.mp hq2).2⟩

/-- Settles O57: the step keeps the filters in step (O46), and filters in step fit their width. -/
theorem everyStepKeepsTheFiltersInTheirWidth : Obligations.EveryStepKeepsTheFiltersInTheirWidth := by
  intro s t hstream h
  have hnext := everyStepKeepsTheFiltersInStep s t hstream h
  exact ⟨hnext, hnext.fits⟩

theorem Reachable.streaming {s : State} (h : Reachable s) : s.regs.Streaming := by
  induction h with
  | start inputs => exact Regs.streaming_of_fresh rfl rfl rfl
  | next _ hstep ih => exact everyStepKeepsTheFiltersInStep _ _ ih hstep

/-- Settles O48: reachable filters are in step with their block. -/
theorem reachableRecursionRegistersFitTheirWidth : Obligations.ReachableRecursionRegistersFitTheirWidth :=
  fun _ h => h.streaming.fits

/-! ### The energy output (R133) -/

theorem energyOut_params_toNat (q1 q2 : Int) (c : Nat) :
    ((energyOut Config.params q1 q2 c).toNat : Int) =
      min (max (Int.fdiv (energyRaw Config.params q1 q2 c) 2097152) 0) 255 := by
  rw [energyOut_toNat (by decide), asr_eq_fdiv]
  rfl

theorem coef_le (t : Tone) : Config.params.coef.get t ≤ 128 := by
  cases t <;> decide

/-- R133's lower bound of `raw`: the cross term is at most the mean of the two squares. -/
theorem two_mul_energyRaw_ge (q1 q2 : Int) (c : Nat) :
    (128 - (c : Int)) * (q1 * q1 + q2 * q2) ≤ 2 * energyRaw Config.params q1 q2 c := by
  have hsquare : 0 ≤ (c : Int) * ((q1 - q2) * (q1 - q2)) := mul_nonneg (Int.natCast_nonneg c) (mul_self_nonneg _)
  rw [energyRaw_params]
  linarith

theorem energyRaw_nonneg (t : Tone) (q1 q2 : Int) : 0 ≤ energyRaw Config.params q1 q2 (Config.params.coef.get t) := by
  have hcoef : 0 ≤ 128 - (Config.params.coef.get t : Int) := by
    have := coef_le t
    omega
  have hlow := two_mul_energyRaw_ge q1 q2 (Config.params.coef.get t)
  have hsquares := mul_nonneg hcoef (add_nonneg (mul_self_nonneg q1) (mul_self_nonneg q2))
  linarith

/-- Settles O11: `raw`, its division and clamp, its lower bound, and the two levels read off the division. -/
theorem energyOutScalesAndSaturates : Obligations.EnergyOutScalesAndSaturates := by
  refine ⟨energyRaw_params, energyOut_params_toNat, fun t q1 q2 => ?levels, by decide, by decide, by decide, by decide⟩
  case levels =>
    have hout := energyOut_params_toNat q1 q2 (Config.params.coef.get t)
    rw [Int.fdiv_eq_ediv_of_nonneg _ (by decide)] at hout
    refine ⟨two_mul_energyRaw_ge q1 q2 _, energyRaw_nonneg t q1 q2, fun hsaturates => ?saturates, ?threshold⟩
    case saturates =>
      apply BitVec.eq_of_toNat_eq
      show _ = 255
      omega
    case threshold => omega

end Sys2Proof.Machine
end

section
/-! PROOFS. The classifier (42_digit_classifier.md): its trees find lowest-index maxima, so that at the defaults a code is a
dominant row tone and a dominant column tone. -/

namespace Sys2Proof.Machine

/-! ### The selection trees (R150, R151, R154) -/

/-- A candidate that is no smaller than any of a group, and of equal ones has the lowest index. -/
def Leads (w : Nat × Nat) (group : List (Nat × Nat)) : Prop :=
  ∀ l ∈ group, l.1 ≤ w.1 ∧ (l.1 = w.1 → w.2 ≤ l.2)

/-- The winner of two groups' leaders leads both groups, when the left group's indexes are the lower ones. -/
theorem max2_leads {v w : Nat × Nat} {ls rs : List (Nat × Nat)} (hv : Leads v ls) (hw : Leads w rs)
    (hleft : ∀ r ∈ rs, v.2 ≤ r.2) : Leads (max2 v w) (ls ++ rs) := by
  intro l hl
  obtain ⟨hmax, hle⟩ | ⟨hmax, hlt⟩ := max2_cases v w <;> rw [hmax] <;> obtain hl | hl := List.mem_append.mp hl
  · exact hv l hl
  · obtain ⟨hlw, -⟩ := hw l hl
    exact ⟨hlw.trans hle, fun _ => hleft l hl⟩
  · obtain ⟨hlv, -⟩ := hv l hl
    exact ⟨by omega, by omega⟩
  · exact hw l hl

theorem leads_singleton (l : Nat × Nat) : Leads l [l] := by
  simp [Leads]

theorem max2_mem {v w : Nat × Nat} {ls : List (Nat × Nat)} (hv : v ∈ ls) (hw : w ∈ ls) : max2 v w ∈ ls := by
  obtain ⟨hmax, -⟩ | ⟨hmax, -⟩ := max2_cases v w <;> rw [hmax] <;> assumption

theorem max2_snd_le {v w : Nat × Nat} {i : Nat} (hv : v.2 ≤ i) (hw : w.2 ≤ i) : (max2 v w).2 ≤ i := by
  obtain ⟨hmax, -⟩ | ⟨hmax, -⟩ := max2_cases v w <;> rw [hmax] <;> assumption

theorem columnWinner_mem (e : Bank Byte) : columnWinner e ∈ columnLevels e :=
  max2_mem (max2_mem (by simp [columnLevels]) (by simp [columnLevels])) (by simp [columnLevels])

theorem rowWinner_mem (e : Bank Byte) : rowWinner e ∈ rowLevels e :=
  max2_mem (max2_mem (by simp [rowLevels]) (by simp [rowLevels])) (max2_mem (by simp [rowLevels]) (by simp [rowLevels]))

/-- c1 against c2, then the winner against c3 (R151). -/
theorem columnWinner_leads (e : Bank Byte) : Leads (columnWinner e) (columnLevels e) := by
  have hpair := max2_leads (leads_singleton (e.c1.toNat, 0)) (leads_singleton (e.c2.toNat, 1)) (by simp)
  exact max2_leads hpair (leads_singleton _) (List.forall_mem_singleton.mpr (max2_snd_le (by simp) (by simp)))

/-- r1 against r2 and r3 against r4, then the two winners (R154). -/
theorem rowWinner_leads (e : Bank Byte) : Leads (rowWinner e) (rowLevels e) := by
  have hlow := max2_leads (leads_singleton (e.r1.toNat, 0)) (leads_singleton (e.r2.toNat, 1)) (by simp)
  have hhigh := max2_leads (leads_singleton (e.r3.toNat, 2)) (leads_singleton (e.r4.toNat, 3)) (by simp)
  have hlowIndex : (max2 (e.r1.toNat, 0) (e.r2.toNat, 1)).2 ≤ 2 := max2_snd_le (by simp) (by simp)
  have hhighIndex : ∀ l ∈ [(e.r3.toNat, 2), (e.r4.toNat, 3)], 2 ≤ l.2 := by simp
  exact max2_leads hlow hhigh fun l hl => hlowIndex.trans (hhighIndex l hl)

/-- Settles O12: each winner is a candidate of its group and leads it. -/
theorem winnersAreLowestIndexMaxima : Obligations.WinnersAreLowestIndexMaxima := fun e =>
  ⟨⟨columnWinner_mem e, columnWinner_leads e⟩, rowWinner_mem e, rowWinner_leads e⟩

/-! ### Ties (R153, R156) -/

/-- A second candidate at the winning energy exceeds its quotient. -/
theorem crossRejects_of_tie {p : Params} {w a b : Nat × Nat} {ls : List (Nat × Nat)} (hdiv : 2 ≤ p.crossDiv)
    (hw : 1 ≤ w.1) (ha : a ∈ ls) (hb : b ∈ ls) (hne : a.2 ≠ b.2) (haw : a.1 = w.1) (hbw : b.1 = w.1) :
    crossRejects p w ls = true := by
  have hquotient : w.1 / p.crossDiv < w.1 := Nat.div_lt_self hw hdiv
  rw [crossRejects_iff]
  by_cases hi : a.2 = w.2
  · exact ⟨b, hb, fun hbi => hne (hi.trans hbi.symm), hbw ▸ hquotient⟩
  · exact ⟨a, ha, hi, haw ▸ hquotient⟩

/-- Settles O15: a code needs both groups to pass cross-rejection, which a tie at a winner that reaches its threshold does not. -/
theorem tiesAtTheMaximumAreRejected : Obligations.TiesAtTheMaximumAreRejected := by
  intro p e hdiv
  obtain hzero | ⟨hcol, hcolCross, hrow, hrowCross, -⟩ := classify_cases p e
  · exact ⟨fun _ _ => hzero, fun _ _ => hzero⟩
  · refine ⟨fun hmin ⟨a, ha, b, hb, hne, haw, hbw⟩ => ?column, fun hmin ⟨a, ha, b, hb, hne, haw, hbw⟩ => ?row⟩
    case column => simp [crossRejects_of_tie hdiv (hmin.trans hcol) ha hb hne haw hbw] at hcolCross
    case row => simp [crossRejects_of_tie hdiv (hmin.trans hrow) ha hb hne haw hbw] at hrowCross

/-! ### The twist tests at the defaults (R158-R160) -/

/-- Energies between 60 and the ceiling are within both twist limits: 255 * 50 and 255 * 38 are below 60 * 256. -/
theorem twistRejects_params {cs rs : Nat} (hcs : 60 ≤ cs) (hcsMax : cs ≤ 255) (hrs : 60 ≤ rs) (hrsMax : rs ≤ 255) :
    twistRejects Config.params cs rs = false := by
  have hfwd : Config.params.fwdTwist = 50 := rfl
  have hrev : Config.params.revTwist = 38 := rfl
  have hden : Config.params.twistDen = 256 := rfl
  rw [Bool.eq_false_iff, ne_eq]
  by_cases hstronger : cs > rs
  · rw [twistRejects_iff_of_row_lt_column _ hstronger, hfwd, hden]
    omega
  · rw [twistRejects_iff_of_column_le_row _ (Nat.not_lt.mp hstronger), hrev, hden]
    omega

/-- Settles O17: a rejection at two energies is one at the ceiling against the threshold, which the defaults exclude. -/
theorem twistIsLiveOnlyUnderOtherThresholds : Obligations.TwistIsLiveOnlyUnderOtherThresholds := by
  refine ⟨fun p cs rs hcs hcsMax hrs hrsMax hrejects => ?live, fun cs rs => twistRejects_params⟩
  case live =>
    by_cases hstronger : cs > rs
    · left
      calc p.minRowValue * p.twistDen
        _ ≤ rs * p.twistDen := Nat.mul_le_mul_right _ hrs
        _ < cs * p.fwdTwist := (twistRejects_iff_of_row_lt_column p hstronger).mp hrejects
        _ ≤ p.energyMax * p.fwdTwist := Nat.mul_le_mul_right _ hcsMax
    · right
      calc p.minColValue * p.twistDen
        _ ≤ cs * p.twistDen := Nat.mul_le_mul_right _ hcs
        _ < rs * p.revTwist := (twistRejects_iff_of_column_le_row p (Nat.not_lt.mp hstronger)).mp hrejects
        _ ≤ p.energyMax * p.revTwist := Nat.mul_le_mul_right _ hrsMax

/-! ### Codes and dominant pairs (R157, R161) -/

/-- The candidate of a group's tone: its energy and its index in the group, whose first tone has the index `base`. -/
def level (e : Bank Byte) (base : Nat) (t : Tone) : Nat × Nat := ((e.get t).toNat, t.index - base)

def rowTones : List Tone := [.r1, .r2, .r3, .r4]

def columnTones : List Tone := [.c1, .c2, .c3]

theorem rowLevels_eq (e : Bank Byte) : rowLevels e = rowTones.map (level e 0) := rfl

theorem columnLevels_eq (e : Bank Byte) : columnLevels e = columnTones.map (level e 4) := rfl

/-- A tone of energy 60 or more that every other tone of its group has at most a third of. -/
def Dominates (e : Bank Byte) (group : List Tone) (t : Tone) : Prop :=
  60 ≤ (e.get t).toNat ∧ ∀ u ∈ group, u ≠ t → (e.get u).toNat ≤ (e.get t).toNat / 3

/-- A group's leader passes the threshold and the cross-rejection exactly as the candidate of a dominant tone. -/
theorem leader_accepted_iff_dominates {e : Bank Byte} {base : Nat} {group : List Tone} {w : Nat × Nat} {t : Tone}
    (hindex : ∀ a ∈ group, ∀ b ∈ group, a.index - base = b.index - base → a = b) (ht : t ∈ group)
    (hmem : w ∈ group.map (level e base)) (hleads : Leads w (group.map (level e base))) :
    (w = level e base t ∧ 60 ≤ w.1 ∧ crossRejects Config.params w (group.map (level e base)) = false) ↔
      Dominates e group t := by
  have hcross : crossRejects Config.params (level e base t) (group.map (level e base)) = false ↔
      ∀ u ∈ group, u ≠ t → (e.get u).toNat ≤ (e.get t).toNat / 3 := by
    have hdiv : Config.params.crossDiv = 3 := rfl
    rw [Bool.eq_false_iff, ne_eq, crossRejects_iff, hdiv]
    simp only [not_exists, not_and, not_lt, List.forall_mem_map]
    exact forall₂_congr fun u hu => 
      imp_congr (not_congr ⟨hindex u hu t ht, congrArg fun a : Tone => a.index - base⟩) Iff.rfl
  constructor
  · rintro ⟨rfl, hmin, hpass⟩
    exact ⟨hmin, hcross.mp hpass⟩
  · rintro ⟨hmin, hothers⟩
    have hw : w = level e base t := by
      obtain ⟨u, hu, rfl⟩ := List.mem_map.mp hmem
      by_cases hut : u = t
      · rw [hut]
      · have hlow := hothers u hu hut
        obtain ⟨hmax, -⟩ := hleads _ (List.mem_map_of_mem ht)
        simp only [level] at hmax
        omega
    exact ⟨hw, hw ▸ hmin, hw ▸ hcross.mpr hothers⟩

theorem column_accepted_iff_dominates (e : Bank Byte) {c : Tone} (hc : c ∈ columnTones) :
    (columnWinner e = level e 4 c ∧ 60 ≤ (columnWinner e).1 ∧
        crossRejects Config.params (columnWinner e) (columnLevels e) = false) ↔ Dominates e columnTones c :=
  leader_accepted_iff_dominates (by decide) hc (columnWinner_mem e) (columnWinner_leads e)

theorem row_accepted_iff_dominates (e : Bank Byte) {r : Tone} (hr : r ∈ rowTones) :
    (rowWinner e = level e 0 r ∧ 60 ≤ (rowWinner e).1 ∧
        crossRejects Config.params (rowWinner e) (rowLevels e) = false) ↔ Dominates e rowTones r :=
  leader_accepted_iff_dominates (by decide) hr (rowWinner_mem e) (rowWinner_leads e)

/-- The code that R157 gives a row tone and a column tone. -/
def codeOf (r c : Tone) : Code := BitVec.ofNat 4 (c.index - 4 + rowOffset r.index)

theorem tonesOf_codeOf : ∀ r ∈ rowTones, ∀ c ∈ columnTones,
    rowToneOf (codeOf r c) = some r ∧ columnToneOf (codeOf r c) = some c := by
  decide

theorem codeOf_tonesOf : ∀ n : Code, ∀ r ∈ rowToneOf n, ∀ c ∈ columnToneOf n,
    r ∈ rowTones ∧ c ∈ columnTones ∧ codeOf r c = n := by
  decide

/-- At the defaults a pair of tones is accepted exactly when both dominate: the twist tests never reject. -/
theorem classify_of_dominates {e : Bank Byte} {r c : Tone} (hr : r ∈ rowTones) (hc : c ∈ columnTones)
    (hrow : Dominates e rowTones r) (hcol : Dominates e columnTones c) : classify Config.params e = codeOf r c := by
  obtain ⟨hcw, hcmin, hccross⟩ := (column_accepted_iff_dominates e hc).mpr hcol
  obtain ⟨hrw, hrmin, hrcross⟩ := (row_accepted_iff_dominates e hr).mpr hrow
  have hmax (t : Tone) : (e.get t).toNat ≤ 255 := Nat.le_of_lt_succ (e.get t).isLt
  have htwist : twistRejects Config.params (columnWinner e).1 (rowWinner e).1 = false :=
    twistRejects_params hcmin (hcw ▸ hmax c) hrmin (hrw ▸ hmax r)
  have hcolMin : ¬(columnWinner e).1 < Config.params.minColValue := Nat.not_lt.mpr hcmin
  have hrowMin : ¬(rowWinner e).1 < Config.params.minRowValue := Nat.not_lt.mpr hrmin
  simp only [classify, hcolMin, hccross, hrowMin, hrcross, htwist]
  rw [hcw, hrw]
  rfl

theorem dominates_of_classify_ne_zero {e : Bank Byte} (h : classify Config.params e ≠ 0) :
    ∃ r ∈ rowTones, ∃ c ∈ columnTones, Dominates e rowTones r ∧ Dominates e columnTones c := by
  obtain hzero | ⟨hcmin, hccross, hrmin, hrcross, -, -⟩ := classify_cases Config.params e
  · exact absurd hzero h
  · obtain ⟨r, hr, hrw⟩ := List.mem_map.mp (rowLevels_eq e ▸ rowWinner_mem e)
    obtain ⟨c, hc, hcw⟩ := List.mem_map.mp (columnLevels_eq e ▸ columnWinner_mem e)
    exact ⟨r, hr, c, hc, (row_accepted_iff_dominates e hr).mp ⟨hrw.symm, hrmin, hrcross⟩,
      (column_accepted_iff_dominates e hc).mp ⟨hcw.symm, hcmin, hccross⟩⟩

/-- Settles O13: a code comes from a dominant row tone and a dominant column tone, and a dominant pair gives its code. -/
theorem classifyAcceptsExactlyDominantPairs : Obligations.ClassifyAcceptsExactlyDominantPairs := by
  intro e n hn
  constructor
  · rintro rfl
    obtain ⟨r, hr, c, hc, hrow, hcol⟩ := dominates_of_classify_ne_zero hn
    obtain ⟨hrn, hcn⟩ := tonesOf_codeOf r hr c hc
    rw [classify_of_dominates hr hc hrow hcol]
    exact ⟨r, c, hrn, hcn, hrow.1, hcol.1, hrow.2, hcol.2⟩
  · rintro ⟨r, c, hrn, hcn, hrmin, hcmin, hrows, hcols⟩
    obtain ⟨hr, hc, hcode⟩ := codeOf_tonesOf n r hrn c hcn
    rw [classify_of_dominates hr hc ⟨hrmin, hrows⟩ ⟨hcmin, hcols⟩, hcode]

/-- Full energy on the two tones of a code and none on the others. -/
def pureEnergies (n : Code) : Bank Byte :=
  Bank.ofFn fun t => if rowToneOf n = some t ∨ columnToneOf n = some t then 255 else 0

/-- Settles O14: the codes are those of three columns and four rows, and a code's own two tones give it. -/
theorem classifyRangeIsTheCodes : Obligations.ClassifyRangeIsTheCodes := by
  refine ⟨classify_le, fun n hn => ⟨pureEnergies n, ?attained⟩⟩
  case attained =>
    revert n
    decide

end Sys2Proof.Machine
end

section
/-! PROOFS. The debouncer over the codes of consecutive blocks (43_duration_debouncer.md section 4): saturation, the distance of
two publishes, and what was heard before one. -/

namespace Sys2Proof.Machine

/-- DecoderState after a run of blocks is the state the next run starts from. -/
theorem debounceRun_append (p : Params) (d : DecoderState) (ns ms : List Code) :
    debounceRun p d (ns ++ ms) =
      ((debounceRun p (debounceRun p d ns).1 ms).1,
        (debounceRun p d ns).2 ++ (debounceRun p (debounceRun p d ns).1 ms).2) := by
  induction ns generalizing d with
  | nil => rfl
  | cons n ns ih => simp [ih]

/-- Settles O23: four traces over twelve codes and three unused ones, evaluated. -/
theorem workedDebounceTraces : Obligations.WorkedDebounceTraces := by
  unfold Obligations.WorkedDebounceTraces
  decide

/-! ### Saturation -/

/-- A block of the candidate itself, without silence before it, counts up (R181). -/
theorem debounce_same {n : Code} (hn : n ≠ 0) (c : Byte) :
    debounce Config.params ⟨n, c, 0⟩ n = (⟨n, satInc Config.params c, 0⟩, 0) := by
  obtain ⟨-, -, -, hd⟩ | ⟨-, hnew, -⟩ | ⟨hzero, -⟩ | ⟨hzero, -⟩ := debounce_cases Config.params ⟨n, c, 0⟩ n
  · exact hd
  · exact absurd ⟨rfl, Nat.zero_le _⟩ hnew
  · exact absurd hzero hn
  · exact absurd hzero hn

/-- The first block of a code after none starts it with count 1 (R182). -/
theorem debounce_first {n : Code} (hn : n ≠ 0) :
    debounce Config.params ⟨0, 0, 0⟩ n = (⟨n, 1, 0⟩, 0) := by
  revert n
  decide

theorem satInc_ofNat_min (k : Nat) :
    satInc Config.params (BitVec.ofNat 8 (min k 255)) = BitVec.ofNat 8 (min (k + 1) 255) := by
  apply BitVec.eq_of_toNat_eq
  rw [satInc_params_toNat, BitVec.toNat_ofNat, BitVec.toNat_ofNat]
  omega

/-- k blocks of a code from the cleared state: the count saturates and nothing is published. -/
theorem debounceRun_tone {n : Code} (hn : n ≠ 0) (k : Nat) :
    debounceRun Config.params ⟨0, 0, 0⟩ (List.replicate (k + 1) n) =
      (⟨n, BitVec.ofNat 8 (min (k + 1) 255), 0⟩, List.replicate (k + 1) 0) := by
  induction k with
  | zero =>
    rw [List.replicate_one, debounceRun_cons, debounce_first hn]
    rfl
  | succ k ih =>
    rw [List.replicate_succ', debounceRun_append, ih, debounceRun_cons, debounce_same hn, satInc_ofNat_min,
      List.replicate_succ' (n := k + 1) (a := (0 : Code))]
    rfl

/-- k silent blocks from the cleared state: the silence count saturates. -/
theorem debounceRun_silence (k : Nat) :
    (debounceRun Config.params ⟨0, 0, 0⟩ (List.replicate k 0)).1 = ⟨0, 0, BitVec.ofNat 8 (min k 255)⟩ := by
  induction k with
  | zero => rfl
  | succ k ih =>
    rw [List.replicate_succ', debounceRun_append, ih, ← satInc_ofNat_min]
    rfl

/-- A silent block before the fourth is counted (R184). -/
theorem debounce_waits (n : Code) (c : Byte) {sc : Byte} (hsc : sc.toNat < 3) :
    ∃ sc' : Byte, sc'.toNat = sc.toNat + 1 ∧ debounce Config.params ⟨n, c, sc⟩ 0 = (⟨n, c, sc'⟩, 0) := by
  obtain ⟨sc', hcount, -, -, hwaits⟩ := silenceBlockConfirmsOrWaits Config.params ⟨n, c, sc⟩ (by decide)
  have hmax : Config.params.countMax = 255 := rfl
  have hmin : Config.params.minSilence = 4 := rfl
  dsimp only at hcount
  exact ⟨sc', by omega, hwaits (.inr (by omega))⟩

/-- The fourth silent block publishes a candidate of at least MIN_TONE blocks (R185). -/
theorem debounce_confirms {n : Code} (hn : n ≠ 0) {c sc : Byte} (hc : 3 ≤ c.toNat) (hsc : sc.toNat = 3) :
    (debounce Config.params ⟨n, c, sc⟩ 0).2 = n := by
  obtain ⟨sc', hcount, hconfirms, -, -⟩ := silenceBlockConfirmsOrWaits Config.params ⟨n, c, sc⟩ (by decide)
  have hmax : Config.params.countMax = 255 := rfl
  have hmin : Config.params.minSilence = 4 := rfl
  dsimp only at hcount
  rw [hconfirms hn (by omega) hc]

theorem debounceRun_four_silent {n : Code} (hn : n ≠ 0) {c : Byte} (hc : 3 ≤ c.toNat) :
    (debounceRun Config.params ⟨n, c, 0⟩ [0, 0, 0, 0]).2 = [0, 0, 0, n] := by
  obtain ⟨s₁, hcount₁, hwaits₁⟩ := debounce_waits n c (sc := 0) (by decide)
  obtain ⟨s₂, hcount₂, hwaits₂⟩ := debounce_waits n c (sc := s₁) (by rw [hcount₁]; decide)
  obtain ⟨s₃, hcount₃, hwaits₃⟩ := debounce_waits n c (sc := s₂) (by rw [hcount₂, hcount₁]; decide)
  have hthree : s₃.toNat = 3 := by rw [hcount₃, hcount₂, hcount₁]; rfl
  simp only [debounceRun_cons, debounceRun_nil, hwaits₁, hwaits₂, hwaits₃, debounce_confirms hn hc hthree]

/-- Settles O20: saturation of both counts, and a tone's blocks followed by the four silent blocks that publish it. -/
theorem countersSaturateAndNeverWrap : Obligations.CountersSaturateAndNeverWrap := by
  refine ⟨fun n k hn hk => ?tone, debounceRun_silence, fun n k hn hk => ?published⟩
  case tone =>
    obtain ⟨j, rfl⟩ := Nat.exists_eq_add_of_le' hk
    rw [debounceRun_tone hn]
  case published =>
    obtain ⟨j, rfl⟩ := Nat.exists_eq_add_of_le' (Nat.one_le_of_lt hk)
    have hcount : 3 ≤ (BitVec.ofNat 8 (min (j + 1) 255)).toNat := by
      rw [BitVec.toNat_ofNat]
      omega
    have hzeros : List.replicate (j + 1 + 3) (0 : Code) = List.replicate (j + 1) 0 ++ [0, 0, 0] := List.replicate_add ..
    rw [debounceRun_append, debounceRun_tone hn, debounceRun_four_silent hn hcount, hzeros, List.append_assoc]
    rfl

/-! ### Two publishes (R185) -/

/-- The least number of blocks from a DecoderState to a publish: MIN_TONE tone blocks less those counted, and then MIN_SILENCE
silent blocks less those counted. -/
def DecoderState.blocksToPublish (d : DecoderState) : Nat :=
  if d.activeDigit = 0 then 7
  else if d.activeCount.toNat < 3 then 7 - d.activeCount.toNat
  else 4 - d.silenceCount.toNat

theorem blocksToPublish_zero (c sc : Byte) : (DecoderState.mk 0 c sc).blocksToPublish = 7 := rfl

theorem blocksToPublish_of_candidate {n : Code} (hn : n ≠ 0) (c sc : Byte) :
    (DecoderState.mk n c sc).blocksToPublish = if c.toNat < 3 then 7 - c.toNat else 4 - sc.toNat :=
  if_neg hn

theorem blocksToPublish_le (d : DecoderState) : d.blocksToPublish ≤ 7 := by
  unfold DecoderState.blocksToPublish
  split_ifs <;> omega

/-- A block brings a publish at most one block nearer; a publish needs the distance to be 1, and makes it 7 again. -/
theorem debounce_blocksToPublish (d : DecoderState) (n : Code) :
    d.blocksToPublish ≤ (debounce Config.params d n).1.blocksToPublish + 1 ∧
      ((debounce Config.params d n).2 ≠ 0 →
        d.blocksToPublish ≤ 1 ∧ (debounce Config.params d n).1.blocksToPublish = 7) := by
  obtain ⟨a, c, sc⟩ := d
  have hmin : Config.params.minSilence = 4 := rfl
  have hcount := satInc_params_toNat c
  have hsilence := satInc_params_toNat sc
  have hseven := blocksToPublish_le ⟨a, c, sc⟩
  obtain ⟨hn, rfl, -, hd⟩ | ⟨hn, -, hd⟩ | ⟨-, ha, hends, hd⟩ | ⟨-, -, hd⟩ := debounce_cases Config.params ⟨a, c, sc⟩ n <;>
    rw [hd]
  · refine ⟨?_, fun hpub => absurd rfl hpub⟩
    have hzero : (0 : Byte).toNat = 0 := rfl
    rw [blocksToPublish_of_candidate hn, blocksToPublish_of_candidate hn, hzero]
    dsimp only
    split_ifs <;> omega
  · refine ⟨?_, fun hpub => absurd rfl hpub⟩
    have hsix : (DecoderState.mk n 1 0).blocksToPublish = 6 := blocksToPublish_of_candidate hn 1 0
    rw [hsix]
    exact hseven
  · refine ⟨hseven.trans (Nat.le_succ 7), fun hpub => ⟨?_, rfl⟩⟩
    have htone : 3 ≤ c.toNat := (ite_ne_right_iff.mp hpub).1
    dsimp only at hends
    rw [blocksToPublish_of_candidate ha]
    split_ifs <;> omega
  · refine ⟨?_, fun hpub => absurd rfl hpub⟩
    by_cases ha : a = 0
    · rw [ha, blocksToPublish_zero, blocksToPublish_zero]
      decide
    · rw [blocksToPublish_of_candidate ha, blocksToPublish_of_candidate ha]
      dsimp only
      split_ifs <;> omega

theorem blocksToPublish_le_of_publish {d : DecoderState} {ns : List Code} {j : Nat}
    (h : (debounceRun Config.params d ns).2.getD j 0 ≠ 0) : d.blocksToPublish ≤ j + 1 := by
  induction ns generalizing d j with
  | nil => simp at h
  | cons n ns ih =>
    obtain ⟨hnearer, hpublish⟩ := debounce_blocksToPublish d n
    cases j with
    | zero => exact (hpublish (by simpa using h)).1.trans (by omega)
    | succ j =>
      have := ih (d := (debounce Config.params d n).1) (j := j) (by simpa using h)
      omega

/-- Settles O21: after a publish the next one is 7 blocks away. -/
theorem publishesAreSevenBlocksApart : Obligations.PublishesAreSevenBlocksApart := by
  intro d codes i j hij hi hj
  induction codes generalizing d i j with
  | nil => simp at hi
  | cons n ns ih =>
    obtain ⟨j, rfl⟩ := Nat.exists_eq_add_of_le' (Nat.one_le_of_lt hij)
    have hj' : (debounceRun Config.params (debounce Config.params d n).1 ns).2.getD j 0 ≠ 0 := by simpa using hj
    cases i with
    | zero =>
      obtain ⟨-, hpublish⟩ := debounce_blocksToPublish d n
      obtain ⟨-, hseven⟩ := hpublish (by simpa using hi)
      have hnext := blocksToPublish_le_of_publish hj'
      omega
    | succ i =>
      have := ih _ i j (by omega) (by simpa using hi) hj'
      omega

/-! ### What was heard (R181-R186) -/

/-- The codes end with the candidate and its silent blocks, fewer than MIN_SILENCE, and hold it as often as it is counted. -/
def Heard (codes : List Code) (d : DecoderState) : Prop :=
  d.activeDigit ≠ 0 → ∃ before, codes = before ++ d.activeDigit :: List.replicate d.silenceCount.toNat 0 ∧
    d.silenceCount.toNat < 4 ∧ d.activeCount.toNat ≤ (before ++ [d.activeDigit]).count d.activeDigit

theorem debounce_heard {codes : List Code} {d : DecoderState} (h : Heard codes d) (n : Code) :
    Heard (codes ++ [n]) (debounce Config.params d n).1 := by
  have hmin : Config.params.minSilence = 4 := rfl
  have hcount := satInc_params_toNat d.activeCount
  have hsilence := satInc_params_toNat d.silenceCount
  obtain ⟨hn, hsame, -, hd⟩ | ⟨hn, -, hd⟩ | ⟨-, -, -, hd⟩ | ⟨rfl, hwaits, hd⟩ := debounce_cases Config.params d n <;> rw [hd]
  · obtain ⟨before, hcodes, -, hheard⟩ := h (hsame ▸ hn)
    refine fun _ => ⟨codes, by rw [← hsame]; rfl, Nat.zero_lt_succ _, ?_⟩
    have hold : (before ++ [d.activeDigit]).count d.activeDigit ≤ codes.count d.activeDigit := by
      rw [hcodes]
      simp
    rw [List.count_append, List.count_singleton_self]
    dsimp only
    omega
  · exact fun _ => ⟨codes, rfl, Nat.zero_lt_succ _, by simp⟩
  · exact fun hzero => absurd rfl hzero
  · intro hdigit
    obtain ⟨before, hcodes, -, hheard⟩ := h hdigit
    have hshort := hwaits.resolve_left hdigit
    have hsucc : (satInc Config.params d.silenceCount).toNat = d.silenceCount.toNat + 1 := by omega
    refine ⟨before, ?_, by dsimp only; omega, hheard⟩
    rw [hsucc, List.replicate_succ', hcodes, List.append_assoc]
    rfl

theorem debounceRun_heard (codes : List Code) : Heard codes (debounceRun Config.params ⟨0, 0, 0⟩ codes).1 := by
  induction codes using List.reverseRecOn with
  | nil => exact fun hzero => absurd rfl hzero
  | append_singleton codes n ih =>
    rw [debounceRun_append]
    exact debounce_heard ih n

/-- A block that publishes is silent, ends the silence of the candidate it publishes, and finds 3 blocks counted (R185). -/
theorem debounce_publishes {d : DecoderState} {m n : Code} (hn : n ≠ 0) (h : (debounce Config.params d m).2 = n) :
    m = 0 ∧ d.activeDigit = n ∧ 3 ≤ d.silenceCount.toNat ∧ 3 ≤ d.activeCount.toNat := by
  have hmin : Config.params.minSilence = 4 := rfl
  have hsilence := satInc_params_toNat d.silenceCount
  obtain ⟨-, -, -, hd⟩ | ⟨-, -, hd⟩ | ⟨hm, -, hends, hd⟩ | ⟨-, -, hd⟩ := debounce_cases Config.params d m <;>
    rw [hd] at h
  · exact absurd h.symm hn
  · exact absurd h.symm hn
  · dsimp only at h
    split at h
    case isTrue htone => exact ⟨hm, h, by omega, htone⟩
    case isFalse => exact absurd h.symm hn
  · exact absurd h.symm hn

/-- Settles O22: the publishing block is the fourth silent one after the candidate that the run before it heard. -/
theorem publishedDigitWasHeardAndThenSilent : Obligations.PublishedDigitWasHeardAndThenSilent := by
  intro codes n hn hlast
  obtain rfl | ⟨codes, m, rfl⟩ := codes.eq_nil_or_concat'
  · simp at hlast
  · rw [debounceRun_append, debounceRun_cons, debounceRun_nil, List.getLast?_concat, Option.some.injEq] at hlast
    obtain ⟨rfl, hdigit, hsilence, htone⟩ := debounce_publishes hn hlast
    obtain ⟨before, hcodes, hshort, hheard⟩ := debounceRun_heard codes (hdigit ▸ hn)
    have hthree : (debounceRun Config.params ⟨0, 0, 0⟩ codes).1.silenceCount.toNat = 3 := by omega
    rw [hdigit] at hheard hcodes
    rw [hthree] at hcodes
    exact ⟨before, by rw [hcodes, List.append_assoc]; rfl, htone.trans hheard⟩

end Sys2Proof.Machine
end

section
/-! PROOFS. The step on the operations that its ports present (45_host_interface.md R230-R232), and runs of sample steps: blocks of
100 samples decoded one after the other (40_pipeline.md R111-R115). -/

namespace Sys2Proof.Machine

/-! ### One port word, and one word on each port -/

/-- Settles O43: `step_eq` and `exec_eq` name the next state. -/
theorem everyStepAndOperationCompletes : Obligations.EveryStepAndOperationCompletes :=
  ⟨fun s => ⟨_, step_eq s⟩, fun i s => ⟨_, exec_eq i s⟩⟩

/-- A command beside no sample is the step's only operation. -/
theorem commandEvents_op_nil (i : Instr) : commandEvents (.op i) [] = [.op i] := by
  cases i <;> rfl

theorem stepEvents_portInput {pw : PortWord} {i : Instr} (h : decode pw = .op i) : stepEvents (portInput pw) = [.op i] := by
  cases pw with
  | cmd w =>
    have hevents : stepEvents (portInput (.cmd w)) = commandEvents (decodeCmd w) [] := rfl
    rw [hevents, show decodeCmd w = .op i from h, commandEvents_op_nil]
  | sample u =>
    obtain rfl : Instr.sample u = i := Decoded.op.inj h
    rfl

theorem portInput_rst (pw : PortWord) : (portInput pw).rst = false := by
  cases pw <;> rfl

theorem step_of_portInput {s : State} {pw : PortWord} {rest : List StepInput} {i : Instr}
    (hin : s.inputs = portInput pw :: rest) (hd : decode pw = .op i) : step s = exec i s.begun := by
  rw [step_eq, State.ports_cons hin, portInput_rst, stepEvents_portInput hd, exec_eq]
  rfl

/-- Settles O35: the port word is the step's only event. -/
theorem stepRunsTheDecodedOperation : Obligations.StepRunsTheDecodedOperation :=
  fun _ _ _ _ => step_of_portInput

/-- A command other than the two writes is performed before what stands beside it (R204). -/
theorem commandEvents_op_cons {i : Instr} (hctrl : ∀ d, i ≠ .wrCtrl d) (hdbg : ∀ d, i ≠ .wrDbgcnt d) (es : List Event) :
    commandEvents (.op i) es = .op i :: es := by
  cases i with
  | wrCtrl d => exact absurd rfl (hctrl d)
  | wrDbgcnt d => exact absurd rfl (hdbg d)
  | _ => rfl

/-- Settles O36: the step's two events in the order of their three cases. -/
theorem stepRunsBothPortsOperations : Obligations.StepRunsBothPortsOperations := by
  intro s inp rest i hin hrst hv hsample hd
  obtain rfl : s.ports = inp := State.ports_cons hin
  have hevents : sampleEvents s.ports = [.op (.sample s.ports.sampleU8)] := by rw [sampleEvents, hsample, if_pos rfl]
  refine ⟨fun hctrl hdbg => ⟨_, exec_eq i _, ?before⟩, ?after, ?alone⟩
  case before =>
    rw [step_eq, hrst, stepEvents_eq, hv, hd, if_pos rfl, commandEvents_op_cons hctrl hdbg, hevents, exec_eq]
    rfl
  case after =>
    rintro d rfl
    refine ⟨_, exec_eq _ _, ?_⟩
    rw [step_eq, hrst, stepEvents_of_wrDbgcnt hv hd, hevents, exec_eq]
    rfl
  case alone =>
    rintro d rfl
    exact step_of_wrCtrl hrst hv hd

/-- The decoder reads a table word as the port word that is placed. -/
theorem portWord_of_decodeTableWord {nbits w : Nat} {i : Instr} (h : decodeTableWord nbits w = some i) :
    ∃ pw, portWordOfTable nbits w = some pw ∧ decode pw = .op i := by
  unfold decodeTableWord at h
  split at h
  case h_1 => cases h
  case h_2 pw hpw =>
    split at h
    case h_1 j hj => exact ⟨pw, hpw, hj.trans (congrArg _ (Option.some.inj h))⟩
    case h_2 => cases h

/-- Settles O37: the placed word is the next inputs' only port word. -/
theorem placedWordIsRunNext : Obligations.PlacedWordIsRunNext := by
  intro s nbits w i h
  obtain ⟨pw, hpw, hd⟩ := portWord_of_decodeTableWord h
  have hplaced : s.withFetchWord nbits w = { s with inputs := portInput pw :: s.inputs } := by
    rw [State.withFetchWord, hpw]
  rw [hplaced, step_of_portInput rfl hd]
  rfl

theorem foldl_sampleEvents_of_ignored {inp : StepInput} {s : State} (h : inp.sampleValid = false ∨ s.regs.enabled = false) :
    (sampleEvents inp).foldl Event.apply s = s := by
  cases hv : inp.sampleValid with
  | false => simp [sampleEvents, hv]
  | true =>
    have hdis : s.regs.enabled = false := h.resolve_left (by simp [hv])
    simp [sampleEvents, hv, Event.apply, execState, acceptSample_of_disabled _ _ hdis]

/-- Settles O40: without a command a step is its sample, which nothing hears. -/
theorem idleStepChangesNothing : Obligations.IdleStepChangesNothing := by
  intro s hrst hv hidle
  have hevents : stepEvents s.ports = sampleEvents s.ports := by rw [stepEvents_eq, hv, if_neg (by simp)]
  rw [step_eq, hrst, hevents, foldl_sampleEvents_of_ignored (s := s.begun) hidle]
  rfl

/-! ### Samples inside a block (R111, R113) -/

theorem step_of_sampleStep {s : State} {u : Byte} {rest : List StepInput} (hin : s.inputs = sampleStep u :: rest) :
    step s = .next (acceptSample Config.params u s.begun) :=
  step_of_portInput (pw := .sample u) hin rfl

/-- The registers `r` with the samples `us` of the current block accepted. -/
def Regs.inBlock (r : Regs) (us : List Byte) : Regs :=
  { r with
    idx := BitVec.ofNat 7 us.length
    q1 := Bank.ofFn fun a => (filterRun Config.params a (us.map (center Config.params))).1
    q2 := Bank.ofFn fun a => (filterRun Config.params a (us.map (center Config.params))).2 }

theorem Regs.inBlock_nil {r : Regs} (hidx : r.idx = 0) (hq1 : r.q1 = Bank.const 0) (hq2 : r.q2 = Bank.const 0) :
    r.inBlock [] = r := by
  cases r
  cases hidx
  cases hq1
  cases hq2
  rfl

theorem Regs.inBlock_filters_concat (r : Regs) (us : List Byte) (u : Byte) (a : Tone) :
    (((r.inBlock us).q1After u).get a, (r.inBlock us).q1.get a) =
      filterRun Config.params a ((us ++ [u]).map (center Config.params)) :=
  filterRun_center_concat (by simp [Regs.inBlock]) u

theorem Regs.inBlock_concat (r : Regs) (us : List Byte) (u : Byte) :
    r.inBlock (us ++ [u]) =
      (r.inBlock us).setFilters ((r.inBlock us).q1After u) (r.inBlock us).q1 ((r.inBlock us).idx + 1) := by
  have hq1 : (r.inBlock (us ++ [u])).q1 = (r.inBlock us).q1After u := Bank.ext_get fun a => by
    simp only [Regs.inBlock, Bank.get_ofFn]
    exact (congrArg Prod.fst (r.inBlock_filters_concat us u a)).symm
  have hq2 : (r.inBlock (us ++ [u])).q2 = (r.inBlock us).q1 := Bank.ext_get fun a => by
    rw [show (r.inBlock us).q1.get a = _ from congrArg Prod.snd (r.inBlock_filters_concat us u a)]
    simp only [Regs.inBlock, Bank.get_ofFn]
  have hidx : (r.inBlock (us ++ [u])).idx = (r.inBlock us).idx + 1 := by
    simp [Regs.inBlock, BitVec.ofNat_add]
  rw [← hq1, ← hq2, ← hidx]
  rfl

/-- The energies of the block that one more sample completes are Estimate's (R134). -/
theorem Regs.inBlock_energiesAfter (r : Regs) (us : List Byte) (u : Byte) :
    (r.inBlock us).energiesAfter u = blockEnergies (us ++ [u]) := Bank.ext_get fun a => by
  rw [blockEnergies, estimate_get, ← r.inBlock_filters_concat us u a, Regs.energiesAfter, Bank.get_ofFn]

/-! ### Runs of sample steps (R115) -/

theorem run_succ_of_step (M : Host.Core) {s s' : M.State} (h : M.step s = .next s') (k : Nat) :
    M.run (k + 1) s = M.run k s' := by
  rw [Host.Core.run, h]

/-- The machine's own `k` steps from `s` end in `t`. -/
def RunsTo (k : Nat) (s t : State) : Prop := Host.Core.run core k s = .next t

theorem RunsTo.refl (s : State) : RunsTo 0 s s := rfl

theorem runsTo_succ_iff {k : Nat} {s t : State} : RunsTo (k + 1) s t ↔ ∃ s', step s = .next s' ∧ RunsTo k s' t := by
  obtain ⟨s', hstep⟩ : ∃ s', step s = .next s' := ⟨_, step_eq s⟩
  rw [RunsTo, run_succ_of_step core hstep k]
  refine ⟨fun h => ⟨s', hstep, h⟩, ?_⟩
  rintro ⟨s'', hstep', h⟩
  obtain rfl : s' = s'' := Host.Outcome.next.inj (hstep.symm.trans hstep')
  exact h

theorem RunsTo.of_step {s t : State} (h : step s = .next t) : RunsTo 1 s t := runsTo_succ_iff.mpr ⟨t, h, RunsTo.refl t⟩

theorem RunsTo.trans {m n : Nat} {s t u : State} (hm : RunsTo m s t) (hn : RunsTo n t u) : RunsTo (m + n) s u := by
  induction m generalizing s with
  | zero =>
    obtain rfl : s = t := Host.Outcome.next.inj hm
    rwa [Nat.zero_add]
  | succ m ih =>
    obtain ⟨s', hstep, hm⟩ := runsTo_succ_iff.mp hm
    rw [Nat.add_right_comm]
    exact runsTo_succ_iff.mpr ⟨s', hstep, ih hm⟩

/-- Fewer than N_BLOCK samples from a block boundary advance the filters and the index, and nothing else. -/
theorem runsTo_inBlock {s : State} {us : List Byte} (hlen : us.length ≤ 99) {rest : List StepInput}
    (hen : s.regs.enabled = true) (hfresh : s.regs.inBlock [] = s.regs) (hin : s.inputs = us.map sampleStep ++ rest) :
    ∃ t, RunsTo us.length s t ∧ t.inputs = rest ∧ t.regs = s.regs.inBlock us := by
  induction us using List.reverseRecOn generalizing rest with
  | nil => exact ⟨s, RunsTo.refl s, hin, hfresh.symm⟩
  | append_singleton us u ih =>
    rw [List.length_append, List.length_singleton] at hlen ⊢
    rw [List.map_append, List.append_assoc] at hin
    obtain ⟨t, hrun, hnext, ht⟩ := ih (by omega) hin
    have hidx : t.begun.regs.idx ≠ 99 := by
      rw [State.begun_regs, ht, ne_eq, ← idx_last_iff, Regs.inBlock, BitVec.toNat_ofNat]
      have hblock : Config.params.nBlock = 100 := rfl
      omega
    have hten : t.begun.regs.enabled = true := by
      rw [State.begun_regs, ht]
      exact hen
    refine ⟨_, hrun.trans (.of_step (step_of_sampleStep hnext)), ?inputs, ?regs⟩
    all_goals rw [acceptSample_inside_block u hten hidx]
    case inputs => rw [State.setRegs_inputs, State.begun, hnext]; rfl
    case regs => rw [State.setRegs_regs, State.begun_regs, ht, Regs.inBlock_concat]

/-! ### Whole blocks (R112, R115) -/

/-- Settles O49: 99 samples inside the block, and the last one completes it on Estimate's energies. -/
theorem hundredSamplesAreOneBlock : Obligations.HundredSamplesAreOneBlock := by
  intro s us rest hen hidx hq1 hq2 hlen hin
  have hfresh := Regs.inBlock_nil hidx hq1 hq2
  obtain rfl | ⟨us, u, rfl⟩ := us.eq_nil_or_concat'
  · simp at hlen
  · have hlen : us.length = 99 := by simpa using hlen
    rw [List.map_append, List.append_assoc] at hin
    obtain ⟨t, hrun, hnext, ht⟩ := runsTo_inBlock hlen.le hen hfresh hin
    have htidx : t.begun.regs.idx = 99 := by
      rw [State.begun_regs, ht, Regs.inBlock, hlen]
      rfl
    have hten : t.begun.regs.enabled = true := by
      rw [State.begun_regs, ht]
      exact hen
    have hverdict : t.begun.regs.verdictAfter u =
        debounce Config.params s.regs.dec (classify Config.params (blockEnergies (us ++ [u]))) := by
      rw [State.begun_regs, ht, Regs.verdictAfter, Regs.inBlock_energiesAfter]
      rfl
    have henergies : t.begun.regs.energiesAfter u = blockEnergies (us ++ [u]) := by
      rw [State.begun_regs, ht, Regs.inBlock_energiesAfter]
    refine ⟨_, hlen ▸ hrun.trans (.of_step (step_of_sampleStep hnext)), ?_⟩
    rw [acceptSample_last_of_block u hten htidx, blockComplete_q1After, hverdict, henergies]
    refine ⟨?inputs, ?regs, rfl, ?latched⟩
    case inputs => rw [State.begun, hnext]; rfl
    case regs =>
      simp only [State.begun_regs, ht, Regs.inBlock]
      rw [hidx, hq1, hq2]
    case latched => rw [State.begun_regs, ht]; rfl

/-- Settles O50: each block is O49's, and it leaves the machine at a block boundary again. -/
theorem consecutiveBlocksAreDecodedInOrder : Obligations.ConsecutiveBlocksAreDecodedInOrder := by
  intro s blocks rest hen hidx hq1 hq2 hlen hin
  induction blocks generalizing s with
  | nil => exact ⟨s, rfl, hin, hen, hidx, rfl, rfl⟩
  | cons b blocks ih =>
    obtain ⟨hb, hblocks⟩ := List.forall_mem_cons.mp hlen
    rw [List.flatten_cons, List.map_append, List.append_assoc] at hin
    obtain ⟨t, hrun, hnext, ht, -, -⟩ := hundredSamplesAreOneBlock s b _ hen hidx hq1 hq2 hb hin
    have hboundary : t.regs.enabled = true ∧ t.regs.idx = 0 ∧ t.regs.q1 = Bank.const 0 ∧ t.regs.q2 = Bank.const 0 := by
      rw [ht]
      exact ⟨hen, hidx, hq1, hq2⟩
    obtain ⟨hten, htidx, htq1, htq2⟩ := hboundary
    obtain ⟨u, hrest, hu, huen, huidx, hudec, huslot⟩ := ih t hten htidx htq1 htq2 hblocks hnext
    refine ⟨u, ?run, hu, huen, huidx, ?dec, ?slot⟩
    case run =>
      rw [List.length_cons, Nat.mul_succ, Nat.add_comm]
      exact RunsTo.trans (s := s) (t := t) (u := u) hrun hrest
    case dec => rw [hudec, ht, List.map_cons, debounceRun_cons]
    case slot => rw [huslot, ht, List.map_cons, debounceRun_cons, List.foldl_cons]

end Sys2Proof.Machine
end
